-- ==== Sys2Proof/Word.lean ====
section
/-! DEFINITION. The units of storage: the byte, the bit and the byte sequence (R15, R16, R51). -/

namespace Sys2Proof

/-- A byte, an unsigned 8-bit value (R15). -/
abbrev Byte := BitVec 8

/-- A one-bit value: the two sequence counters and sequence operands (R12, R15). -/
abbrev Bit := BitVec 1

/-- A byte sequence, index 0 (the oldest byte) at the head (R16). -/
abbrev Bytes := List Byte

end Sys2Proof
end

