-- ==== Sys2Proof/Config.lean ====
section
/-! DEFINITION. The hardwired constants of the block (R8 to R11, R32), its open parameters (R13, R14)
and the free values of the model. -/

namespace Sys2Proof.Config

/-- `GEN`, the CRC-8 generator, "not reduced to 8 bits" (R8). -/
def gen : Nat := 0x1D5

/-- `DEG`, the check bit index of the CRC-8 instantiation (R8). -/
def deg : Nat := 8

/-- `FLUSH`, the zero bits appended by the CRC-8 instantiation (R8). -/
def flush : Nat := 8

/-- Generator of the CRC-7 function (R113). -/
def gen7 : Nat := 0b1001

/-- Check bit index of the CRC-7 function (R113). -/
def deg7 : Nat := 3

/-- Zero bits appended by the CRC-7 function (R113). -/
def flush7 : Nat := 6

/-- `START`, the character that opens a frame (R9). -/
def startByte : Byte := 0x7B#8

/-- `END`, the character that closes a frame (R9). -/
def endByte : Byte := 0x7D#8

/-- `ESC`, the escape byte (R9). -/
def escByte : Byte := 0x5C#8

/-- `CHUNK`, the data bytes of one frame (R10). -/
def chunkLen : Nat := 8

/-- `CTRL_DATA` (R11). -/
def ctrlData : Byte := 0x00#8

/-- `CTRL_NAK` (R11). -/
def ctrlNak : Byte := 0x10#8

/-- `CTRL_ACK` (R11). -/
def ctrlAck : Byte := 0x11#8

/-- `TYPE_MASK`, bit 4 of the control byte (R11, R85). -/
def typeMask : Byte := 0x10#8

/-- `META_LEN`, the decoded bytes before the payload: control, sequence, checksum (R11). -/
def metaLen : Nat := 3

/-- The open parameters of the block, "arguments of the model, not registers" (R13, R14, R32).
`none` in a capacity means unbounded. -/
structure Params where
  /-- `HAS_TIMEOUT`: the environment may issue TIMEOUT (R13). -/
  hasTimeout : Bool
  /-- `ACC_CAP`: capacity of the receive accumulator in bytes (R14). -/
  accCap : Option Nat
  /-- `MAX_PAYLOAD`: the largest payload one SEND accepts (R14). -/
  maxPayload : Option Nat
  deriving DecidableEq, Repr

/-- "A finite `ACC_CAP` must be at least 22, the longest frame this station emits" (R14). -/
def Params.wf (p : Params) : Bool :=
  match p.accCap with
  | none => true
  | some n => decide (22 ≤ n)

/-- `HAS_TIMEOUT` of the machine after power-on: OPEN in the spec (R13, D20), so it has no body.
Log entry 14. -/
opaque hasTimeout : Bool

/-- FREE VALUE, drawn by number: the content of `txhold` and `pcf` after the RESET operation, which
the spec leaves unspecified (R230, R231, 93 U6). Log entry 12. -/
opaque freeBytes : Nat → List (BitVec 8)

end Sys2Proof.Config
end

