-- ==== Sys2Proof/Syntax.lean ====
section
/-! DEFINITION. The instructions: one constructor per row of spec/opcode_table.json (R100, R101),
and the form in which the environment issues one. -/

namespace Sys2Proof

/-- The four row formats of the opcode table (R101). -/
inductive Format where
  /-- An operation of R100, named by its 4-bit index. -/
  | op
  /-- A wire byte of R80, as it arrives on line-in. -/
  | wb
  /-- A control byte of R86, decoded byte 0 of a received frame. -/
  | cb
  /-- A whole control frame of R90, as it arrives on line-in. -/
  | frame
  deriving DecidableEq, Repr

/-- One constructor per row of the opcode table, in its order. -/
inductive Instr where
  -- format OP, step operations (R100)
  | reset
  | send (payload : Bytes)
  | txdata
  | ackwait
  | timeout
  | rxbytes (batch : Bytes)
  | extract
  | rxframe
  -- format OP, functions (R100)
  | crc8 (bytes : Bytes)
  | crc7 (bytes : Bytes)
  | crc (bytes : Bytes) (gen deg flush : Nat)
  | encodeFrame (metadata payload : Bytes)
  | chunk (payload : Bytes)
  | mkdata (seq : Bit) (chunk : Bytes)
  | mkctl (control sequence : Byte)
  | ctlclass (frame : Bytes)
  -- format WB, the wire byte classes (R80)
  | wbStart
  | wbEnd
  | wbEsc
  | wbLit (d : Byte)
  -- format CB, the classes of decoded byte 0 (R86)
  | cbAck
  | cbNak
  | cbCtlrsv (c : Byte)
  | cbData (c : Byte)
  -- format FRAME, the control frames of R90
  | frameNak0
  | frameNak1
  | frameAck0
  | frameAck1
  deriving DecidableEq, Repr

/-- The table format an instruction belongs to. -/
def Instr.format : Instr → Format
  | .reset | .send _ | .txdata | .ackwait | .timeout | .rxbytes _ | .extract | .rxframe => .op
  | .crc8 _ | .crc7 _ | .crc _ _ _ _ | .encodeFrame _ _ | .chunk _ | .mkdata _ _ | .mkctl _ _
  | .ctlclass _ => .op
  | .wbStart | .wbEnd | .wbEsc | .wbLit _ => .wb
  | .cbAck | .cbNak | .cbCtlrsv _ | .cbData _ => .cb
  | .frameNak0 | .frameNak1 | .frameAck0 | .frameAck1 => .frame

/-- One issued operation, as the environment hands it to the machine: the format (which interface it
comes by) and the bytes. DESIGN CHOICE, log entries 1 and 2: the spec gives operations no bus
encoding (D32). -/
structure Issue where
  fmt : Format
  bytes : Bytes
  deriving DecidableEq, Repr

end Sys2Proof
end

