-- ==== Sys2Proof/WellFormed.lean ====
section
/-! DEFINITION. Well-formed instructions: the operand domains the spec states. The meanings are total
outside them as well (log entry 16). -/

namespace Sys2Proof

/-- A byte with a delimiter or escape role: START, END or ESC (R9, R80). -/
def reservedByte (b : Byte) : Bool :=
  b == Config.startByte || b == Config.endByte || b == Config.escByte

/-- The type bit, bit 4: set in a control frame's control byte (R85). -/
def typeBit (c : Byte) : Bool := (c &&& Config.typeMask) != 0#8

/-- The operand checks, one per stated domain: CRC needs `gen` with bit `deg` set (R110), MKDATA a
chunk of at most 8 bytes (R161), MKCTL the control bytes 0x10 and 0x11 and the sequence bytes 0 and 1
(R186), CTLCLASS a non-empty frame with bit 4 of its byte 0 set (R163), LIT a byte that is none of
the three reserved ones (R80), CTLRSV a control byte with bit 4 set other than 0x10 and 0x11 and DATA
one with bit 4 clear (R86). -/
def Instr.wf : Instr → Bool
  | .crc _ g d _ => g.testBit d
  | .mkdata _ data => decide (data.length ≤ Config.chunkLen)
  | .mkctl c s =>
    (c == Config.ctrlNak || c == Config.ctrlAck) && (s == 0#8 || s == 1#8)
  | .ctlclass [] => false
  | .ctlclass (c :: _) => typeBit c
  | .wbLit d => !reservedByte d
  | .cbCtlrsv c => typeBit c && c != Config.ctrlAck && c != Config.ctrlNak
  | .cbData c => !typeBit c
  | .reset | .send _ | .txdata | .ackwait | .timeout | .rxbytes _ | .extract | .rxframe
  | .crc8 _ | .crc7 _ | .encodeFrame _ _ | .chunk _ | .wbStart | .wbEnd | .wbEsc | .cbAck | .cbNak
  | .frameNak0 | .frameNak1 | .frameAck0 | .frameAck1 => true

end Sys2Proof
end

