-- ==== Sys2Proof/Decode.lean ====
section
/-! DEFINITION. The opcode table, the decoder and, after it, the encoder. The 4-bit op index, the wire
byte classes, the control byte classes and the control frames are the spec's (R80, R86, R90, R100,
R101); how operands follow the op index is this model's choice (log entry 2). -/

namespace Sys2Proof

/-! ### The opcode table (R101) -/

/-- A row of spec/opcode_table.json: an instruction's first `nbits` bits, read as a number with bit 0
the least significant, equal `pattern` where `mask` is 1. -/
structure Row where
  mnemonic : String
  fmt : Format
  nbits : Nat
  pattern : Nat
  mask : Nat
  deriving DecidableEq, Repr

/-- The row matches the word `w`. -/
def Row.hits (r : Row) (w : Nat) : Bool := w &&& r.mask == r.pattern

/-- The 16 operations (R100). -/
def opRows : List Row :=
  [⟨"RESET", .op, 4, 0x0, 0xF⟩, ⟨"SEND", .op, 4, 0x1, 0xF⟩, ⟨"TXDATA", .op, 4, 0x2, 0xF⟩,
   ⟨"ACKWAIT", .op, 4, 0x3, 0xF⟩, ⟨"TIMEOUT", .op, 4, 0x4, 0xF⟩, ⟨"RXBYTES", .op, 4, 0x5, 0xF⟩,
   ⟨"EXTRACT", .op, 4, 0x6, 0xF⟩, ⟨"RXFRAME", .op, 4, 0x7, 0xF⟩, ⟨"CRC8", .op, 4, 0x8, 0xF⟩,
   ⟨"CRC7", .op, 4, 0x9, 0xF⟩, ⟨"CRC", .op, 4, 0xA, 0xF⟩, ⟨"ENCODE", .op, 4, 0xB, 0xF⟩,
   ⟨"CHUNK", .op, 4, 0xC, 0xF⟩, ⟨"MKDATA", .op, 4, 0xD, 0xF⟩, ⟨"MKCTL", .op, 4, 0xE, 0xF⟩,
   ⟨"CTLCLASS", .op, 4, 0xF, 0xF⟩]

/-- The wire byte classes, LIT tried last (R80). -/
def wbRows : List Row :=
  [⟨"START", .wb, 8, 0x7B, 0xFF⟩, ⟨"END", .wb, 8, 0x7D, 0xFF⟩, ⟨"ESC", .wb, 8, 0x5C, 0xFF⟩,
   ⟨"LIT", .wb, 8, 0x00, 0x00⟩]

/-- The control byte classes, "to be tried in the listed order" (R86, R101). -/
def cbRows : List Row :=
  [⟨"ACK", .cb, 8, 0x11, 0xFF⟩, ⟨"NAK", .cb, 8, 0x10, 0xFF⟩, ⟨"CTLRSV", .cb, 8, 0x10, 0x10⟩,
   ⟨"DATA", .cb, 8, 0x00, 0x10⟩]

/-- The emitted control frames, "40-bit pattern, first wire byte leftmost" (R90, R101). -/
def frameRows : List Row :=
  [⟨"NAK0", .frame, 40, 0x7B1000B07D, 0xFFFFFFFFFF⟩, ⟨"NAK1", .frame, 40, 0x7B1001657D, 0xFFFFFFFFFF⟩,
   ⟨"ACK0", .frame, 40, 0x7B1100BB7D, 0xFFFFFFFFFF⟩, ⟨"ACK1", .frame, 40, 0x7B11016E7D, 0xFFFFFFFFFF⟩]

/-- The rows of a format, in the order in which they are tried. -/
def rowsOf : Format → List Row
  | .op => opRows
  | .wb => wbRows
  | .cb => cbRows
  | .frame => frameRows

/-- The first row of a format that matches a word. -/
def firstRow (f : Format) (w : Nat) : Option Row := (rowsOf f).find? (·.hits w)

/-- The mnemonic of an instruction's row. -/
def Instr.mnemonic : Instr → String
  | .reset => "RESET" | .send _ => "SEND" | .txdata => "TXDATA" | .ackwait => "ACKWAIT"
  | .timeout => "TIMEOUT" | .rxbytes _ => "RXBYTES" | .extract => "EXTRACT" | .rxframe => "RXFRAME"
  | .crc8 _ => "CRC8" | .crc7 _ => "CRC7" | .crc _ _ _ _ => "CRC" | .encodeFrame _ _ => "ENCODE"
  | .chunk _ => "CHUNK" | .mkdata _ _ => "MKDATA" | .mkctl _ _ => "MKCTL" | .ctlclass _ => "CTLCLASS"
  | .wbStart => "START" | .wbEnd => "END" | .wbEsc => "ESC" | .wbLit _ => "LIT"
  | .cbAck => "ACK" | .cbNak => "NAK" | .cbCtlrsv _ => "CTLRSV" | .cbData _ => "DATA"
  | .frameNak0 => "NAK0" | .frameNak1 => "NAK1" | .frameAck0 => "ACK0" | .frameAck1 => "ACK1"

/-! ### The decoder -/

/-- Why an issue is no instruction. -/
inductive Reject where
  /-- No byte at all. -/
  | noBytes
  /-- Format OP: the byte is above 15, and the op index has 4 bits (R100). -/
  | opIndexAbove15
  /-- Format OP: an operand ends early. -/
  | truncatedOperand
  /-- Format OP: an operand's continuation byte is neither 00 nor 01. -/
  | badContinuation
  /-- Format OP: MKDATA's one-bit sequence number is neither 00 nor 01. -/
  | seqBitAbove1
  /-- Format FRAME: the bytes are none of the four frames of R90. -/
  | notAControlFrame
  /-- Bytes are left over after the instruction. -/
  | trailingBytes
  deriving DecidableEq, Repr

/-- What a decoder answers: an instruction and the bytes after it. -/
abbrev Decoded := Except Reject (Instr × Bytes)

/-- A byte sequence operand: each byte behind a continuation byte 01, closed by 00. -/
def takeSeq : Bytes → Except Reject (Bytes × Bytes)
  | [] => .error .truncatedOperand
  | [b] => if b == 0#8 then .ok ([], []) else if b == 1#8 then .error .truncatedOperand else .error .badContinuation
  | b :: c :: rest =>
    if b == 0#8 then .ok ([], c :: rest)
    else if b == 1#8 then
      match takeSeq rest with
      | .error e => .error e
      | .ok (cs, r) => .ok (c :: cs, r)
    else .error .badContinuation

/-- A natural number from its base 256 digits, least significant first. -/
def natOfDigits : Bytes → Nat
  | [] => 0
  | d :: ds => d.toNat + 256 * natOfDigits ds

/-- Read a byte sequence operand, then go on. -/
def withSeq (bs : Bytes) (k : Bytes → Bytes → Decoded) : Decoded :=
  match takeSeq bs with
  | .error e => .error e
  | .ok (p, rest) => k p rest

/-- Read a natural number operand, a sequence of base 256 digits, then go on. -/
def withNat (bs : Bytes) (k : Nat → Bytes → Decoded) : Decoded :=
  withSeq bs fun ds rest => k (natOfDigits ds) rest

/-- Read a one-byte operand, then go on. -/
def withByte (bs : Bytes) (k : Byte → Bytes → Decoded) : Decoded :=
  match bs with
  | [] => .error .truncatedOperand
  | b :: rest => k b rest

/-- Read a one-bit operand, a byte 00 or 01, then go on. -/
def withBit (bs : Bytes) (k : Bit → Bytes → Decoded) : Decoded :=
  withByte bs fun b rest =>
    if b == 0#8 then k 0#1 rest else if b == 1#8 then k 1#1 rest else .error .seqBitAbove1

/-- Format OP: the op index of R100 in the low 4 bits of the first byte, then the operands. -/
def decodeOp (op : Byte) (bs : Bytes) : Decoded :=
  match op.toNat with
  | 0 => .ok (.reset, bs)
  | 1 => withSeq bs fun p r => .ok (.send p, r)
  | 2 => .ok (.txdata, bs)
  | 3 => .ok (.ackwait, bs)
  | 4 => .ok (.timeout, bs)
  | 5 => withSeq bs fun p r => .ok (.rxbytes p, r)
  | 6 => .ok (.extract, bs)
  | 7 => .ok (.rxframe, bs)
  | 8 => withSeq bs fun p r => .ok (.crc8 p, r)
  | 9 => withSeq bs fun p r => .ok (.crc7 p, r)
  | 10 =>
    withSeq bs fun p r1 => withNat r1 fun g r2 => withNat r2 fun d r3 => withNat r3 fun f r4 =>
      .ok (.crc p g d f, r4)
  | 11 => withSeq bs fun m r1 => withSeq r1 fun p r2 => .ok (.encodeFrame m p, r2)
  | 12 => withSeq bs fun p r => .ok (.chunk p, r)
  | 13 => withBit bs fun s r1 => withSeq r1 fun c r2 => .ok (.mkdata s c, r2)
  | 14 => withByte bs fun c r1 => withByte r1 fun s r2 => .ok (.mkctl c s, r2)
  | 15 => withSeq bs fun c r => .ok (.ctlclass c, r)
  | _ => .error .opIndexAbove15

/-- Format WB: the class of a wire byte (R80). -/
def decodeWb (b : Byte) : Instr :=
  if b == Config.startByte then .wbStart
  else if b == Config.endByte then .wbEnd
  else if b == Config.escByte then .wbEsc
  else .wbLit b

/-- Format CB: the class of a control byte, rows tried in the listed order (R86). -/
def decodeCb (c : Byte) : Instr :=
  if c == Config.ctrlAck then .cbAck
  else if c == Config.ctrlNak then .cbNak
  else if (c &&& Config.typeMask) == Config.typeMask then .cbCtlrsv c
  else .cbData c

/-- The wire bytes of a FRAME row, as R90 lists them. -/
def nak0Wire : Bytes := [0x7B#8, 0x10#8, 0x00#8, 0xB0#8, 0x7D#8]
/-- See `nak0Wire`. -/
def nak1Wire : Bytes := [0x7B#8, 0x10#8, 0x01#8, 0x65#8, 0x7D#8]
/-- See `nak0Wire`. -/
def ack0Wire : Bytes := [0x7B#8, 0x11#8, 0x00#8, 0xBB#8, 0x7D#8]
/-- See `nak0Wire`. -/
def ack1Wire : Bytes := [0x7B#8, 0x11#8, 0x01#8, 0x6E#8, 0x7D#8]

/-- Format FRAME: one of the four control frames of R90. -/
def decodeFrame (bs : Bytes) : Decoded :=
  let f := bs.take 5
  if f == nak0Wire then .ok (.frameNak0, bs.drop 5)
  else if f == nak1Wire then .ok (.frameNak1, bs.drop 5)
  else if f == ack0Wire then .ok (.frameAck0, bs.drop 5)
  else if f == ack1Wire then .ok (.frameAck1, bs.drop 5)
  else .error .notAControlFrame

/-- The decoder: total on any bytes, the format given by the interface they come by. -/
def decode (f : Format) (bs : Bytes) : Decoded :=
  match f, bs with
  | _, [] => .error .noBytes
  | .op, b :: rest => decodeOp b rest
  | .wb, b :: rest => .ok (decodeWb b, rest)
  | .cb, b :: rest => .ok (decodeCb b, rest)
  | .frame, b :: rest => decodeFrame (b :: rest)

/-- The instruction of one issue: all its bytes, no more. -/
def decodeIssue (e : Issue) : Except Reject Instr :=
  match decode e.fmt e.bytes with
  | .error r => .error r
  | .ok (i, []) => .ok i
  | .ok (_, _ :: _) => .error .trailingBytes

/-! ### The encoder -/

/-- A byte sequence operand (see `takeSeq`). -/
def putSeq : Bytes → Bytes
  | [] => [0#8]
  | b :: bs => 1#8 :: b :: putSeq bs

/-- The base 256 digits of a number, least significant first; the first argument bounds their count. -/
def digitsOf : Nat → Nat → Bytes
  | 0, _ => []
  | k + 1, n => if n == 0 then [] else BitVec.ofNat 8 n :: digitsOf k (n / 256)

/-- A natural number operand (see `withNat`). -/
def putNat (n : Nat) : Bytes := putSeq (digitsOf n n)

/-- The bytes of an instruction: the row's pattern and the operands. -/
def encode : Instr → Bytes
  | .reset => [0x0#8]
  | .send p => 0x1#8 :: putSeq p
  | .txdata => [0x2#8]
  | .ackwait => [0x3#8]
  | .timeout => [0x4#8]
  | .rxbytes p => 0x5#8 :: putSeq p
  | .extract => [0x6#8]
  | .rxframe => [0x7#8]
  | .crc8 p => 0x8#8 :: putSeq p
  | .crc7 p => 0x9#8 :: putSeq p
  | .crc p g d f => 0xA#8 :: (putSeq p ++ (putNat g ++ (putNat d ++ putNat f)))
  | .encodeFrame m p => 0xB#8 :: (putSeq m ++ putSeq p)
  | .chunk p => 0xC#8 :: putSeq p
  | .mkdata s c => 0xD#8 :: BitVec.setWidth 8 s :: putSeq c
  | .mkctl c s => [0xE#8, c, s]
  | .ctlclass c => 0xF#8 :: putSeq c
  | .wbStart => [Config.startByte]
  | .wbEnd => [Config.endByte]
  | .wbEsc => [Config.escByte]
  | .wbLit d => [d]
  | .cbAck => [Config.ctrlAck]
  | .cbNak => [Config.ctrlNak]
  | .cbCtlrsv c => [c]
  | .cbData c => [c]
  | .frameNak0 => nak0Wire
  | .frameNak1 => nak1Wire
  | .frameAck0 => ack0Wire
  | .frameAck1 => ack1Wire

/-- The issue that stands for an instruction. -/
def Instr.issue (i : Instr) : Issue := ⟨i.format, encode i⟩

/-- An instruction's first `nbits` bits as its row numbers them: the first byte for the one-byte rows,
the five wire bytes with the first one leftmost for a frame (R101). -/
def Instr.patternWord (i : Instr) : Nat :=
  match i.format with
  | .frame => (encode i).foldl (fun n b => 256 * n + b.toNat) 0
  | .op | .wb | .cb => ((encode i).headD 0#8).toNat

/-! ### Words of the opcode table

A table word carries no format, and the formats share values (0x00 is RESET, a LIT byte and a DATA
control byte). Log entry 3 says how `tableIssue` chooses. -/

/-- The operand bytes an OP row needs at least: all of them zero. -/
def operandPad : Nat → Nat
  | 1 | 5 | 8 | 9 | 12 | 15 => 1
  | 10 => 4
  | 11 | 13 | 14 => 2
  | _ => 0

/-- The format a one-byte table word is read in: the rows that fix all its bits first (the op indices,
the delimiters), then a control byte if bit 4 is set, then a literal below 0x80 and a data control
byte from there on. -/
def tableFormat (b : Byte) : Format :=
  if b.toNat < 16 then .op
  else if reservedByte b then .wb
  else if typeBit b then .cb
  else if b.toNat < 128 then .wb
  else .cb

/-- The bytes of an `n`-byte word, the most significant byte first. -/
def bytesMsbFirst : Nat → Nat → Bytes
  | 0, _ => []
  | k + 1, w => BitVec.ofNat 8 (w >>> (8 * k)) :: bytesMsbFirst k w

/-- The issue for a word of the opcode table with `nbits` bits: up to 8 bits one byte and its zero
operand bytes, beyond that a frame with its first wire byte leftmost (R101). -/
def tableIssue (nbits w : Nat) : Issue :=
  if nbits ≤ 8 then
    let b := BitVec.ofNat 8 w
    match tableFormat b with
    | .op => ⟨.op, b :: List.replicate (operandPad b.toNat) 0#8⟩
    | f => ⟨f, [b]⟩
  else ⟨.frame, bytesMsbFirst (nbits / 8) w⟩

/-- The instruction the decoder reads from a word of the opcode table. -/
def decodeTableWord (nbits w : Nat) : Option Instr :=
  match decodeIssue (tableIssue nbits w) with
  | .ok i => some i
  | .error _ => none

end Sys2Proof
end

