-- ==== Sys2Proof/Machine/State.lean ====
section
/-! DEFINITION. The state of a station, plain data: every element of R20 but `dividend`, which the spec
says a model has no field for (R30, 93 U7), the open parameters, and the model's own fields. -/

namespace Sys2Proof.Machine

/-- The ARQ sender state (R23). The tag of `AwaitingAck(seq)` always equals `senderSeq`, so "a model may
store `arq` as one bit" (R23); log entry 23. -/
inductive Arq where
  /-- "no frame awaiting acknowledgment" -/
  | idle
  /-- "one data frame ... has been transmitted and not yet acknowledged" -/
  | awaitingAck
  deriving DecidableEq, Repr

/-- What CTLCLASS answers of a decoded control frame (R163). -/
inductive CtlClass where
  | ack
  | nak
  | malformed
  deriving DecidableEq, Repr

/-- The six cases of RXFRAME, in the order in which they are tried (R182). -/
inductive RxCase where
  /-- no decoded bytes (R183) -/
  | empty
  /-- the type bit is set (R184) -/
  | control
  /-- data type, one or two bytes (R185) -/
  | runt
  /-- data type, the checksum disagrees (R187) -/
  | mismatch
  /-- data type, the checksum agrees and the sequence byte differs from `receiverSeq` (R188) -/
  | duplicate
  /-- data type, both agree (R189) -/
  | accept
  deriving DecidableEq, Repr

/-- The error conditions (a) to (e) of R200. None is recorded anywhere (R201). -/
inductive Condition where
  | incomplete
  | damaged
  | checksumMismatch
  | duplicate
  | controlLost
  deriving DecidableEq, Repr

/-- A value given back by `return v` (R17). -/
inductive Value where
  /-- Nothing has been returned yet. -/
  | nothing
  /-- A checksum: CRC, CRC8, CRC7. -/
  | byte (b : Byte)
  /-- Wire bytes: ENCODE, MKDATA, MKCTL. -/
  | bytes (bs : Bytes)
  /-- Byte slices: CHUNK. -/
  | chunks (cs : List Bytes)
  /-- A class: CTLCLASS. -/
  | ctl (c : CtlClass)
  /-- `none` or `some(decoded bytes)`: EXTRACT. -/
  | frame (f : Option Bytes)
  deriving DecidableEq, Repr

/-- The waits: an operation whose `require` condition is false "has no step (the agent waits; nothing
changes)" (R17, R100, R216). Each is lifted by another operation. -/
inductive Hold where
  /-- SEND while `busy = 1` (R152, R216 (3)). -/
  | clientBusy
  /-- TXDATA while `sq_valid = 0` (R162). -/
  | nothingToSend
  /-- TXDATA while `arq = AwaitingAck` (R162). -/
  | frameOutstanding
  /-- ACKWAIT, TIMEOUT or a control byte row of CB while `arq = Idle` (R164, R166). -/
  | noFrameOutstanding
  /-- ACKWAIT or a control byte row of CB while `pcf_full = 0` (R164, R216 (1)). -/
  | slotEmpty
  /-- TIMEOUT while `HAS_TIMEOUT` is false (R166). -/
  | noTimer
  /-- EXTRACT while a frame waits in `rxpend` (R135). -/
  | framePending
  /-- RXFRAME or DATA while `rxpend = none` (R182). -/
  | noFramePending
  /-- RXFRAME on a control frame while `pcf_full = 1` (R184, R216 (2)). -/
  | slotFull
  /-- A CB row whose control byte is not that of the frame in question (log entry 8). -/
  | otherControlByte
  deriving DecidableEq, Repr

/-- The model faults of R215. The source has no fault: conditions (a) to (e) are ordinary steps (R202). -/
inductive Fault where
  /-- Raised by RXBYTES, and by the WB and FRAME rows, when `rxacc` would exceed a finite `ACC_CAP`
  (R215). Safe: nothing is claimed after it. -/
  | accOverflow
  /-- Raised by SEND when the payload exceeds a finite `MAX_PAYLOAD` (R215). Safe: nothing is claimed
  after it. -/
  | payloadTooLong
  deriving DecidableEq, Repr

/-- Why there is no step. -/
inductive Refusal where
  /-- Raised by `exec` for an instruction with no meaning in this model; no arm uses it. Safe. -/
  | notModelled (mnemonic : String)
  /-- Raised by an operation whose `require` condition is false: it has no step (R17, 93 U2 and U11).
  Safe: the model goes nowhere the block does not. Log entry 5. -/
  | held (h : Hold)
  /-- Raised by `step` when the environment has issued nothing: no operation, no step. Safe. Log
  entry 6. -/
  | noEvent
  /-- Raised by `step` for an issue that is no instruction. Safe. Log entry 21. -/
  | undecodable (r : Reject)
  /-- Raised by a link's step for an operation that would put bytes on line-in past the channel, which
  R66 forbids the transport. Safe. Log entry 20. -/
  | insertion
  deriving DecidableEq, Repr

/-- A station (R20), its parameters, and what the model keeps beside it. -/
structure State where
  /-- The next outbound data frame's sequence number (R21). -/
  senderSeq : Bit
  /-- The next expected data frame's sequence number (R22). -/
  receiverSeq : Bit
  /-- The ARQ sender state (R23). -/
  arq : Arq
  /-- `sq_valid`: a chunk of the payload in progress is still owed (R25). -/
  sqValid : Bool
  /-- Payload bytes not yet put into a chunk (R25). -/
  sendq : Bytes
  /-- Wire bytes of the data frame last transmitted; unspecified and never read while Idle (R26). -/
  txhold : Bytes
  /-- The receive accumulator: raw bytes not yet resolved into a frame (R27). -/
  rxacc : Bytes
  /-- Decoded bytes of an extracted frame not yet processed (R28). -/
  rxpend : Option Bytes
  /-- `pcf_full`: the slot holds a control frame not yet consumed (R29). -/
  pcfFull : Bool
  /-- All decoded bytes of the pending control frame; unspecified and never read while the slot is
  empty (R29). -/
  pcf : Bytes
  /-- The open parameters, written by no operation (R13, R14, R32; log entry 14). -/
  params : Config.Params
  /-- The model's own: the frames passed to `transmit`, oldest first (R67). -/
  txLog : List Bytes
  /-- The model's own: the payloads passed to `deliver`, oldest first (R67). -/
  dlvLog : List Bytes
  /-- The model's own: what the last `return v` gave (R17; log entry 10). -/
  result : Value
  /-- The model's own: the operations the environment has issued, the next one first (log entry 1). -/
  sched : List Issue
  /-- The model's own: the free values drawn so far (log entry 12). -/
  freeCount : Nat
  deriving DecidableEq, Repr

/-- The machine after power-on: the reset values of R37, `txhold` and `pcf` (unspecified, R231) at a
value log entry 11 names, both capacities unbounded as in the normative model (R14), nothing issued. -/
def State.reset : State where
  senderSeq := 0#1
  receiverSeq := 0#1
  arq := .idle
  sqValid := false
  sendq := []
  txhold := []
  rxacc := []
  rxpend := none
  pcfFull := false
  pcf := []
  params := { hasTimeout := Config.hasTimeout, accCap := none, maxPayload := none }
  txLog := []
  dlvLog := []
  result := .nothing
  sched := []
  freeCount := 0

/-- The outcome of an operation. -/
abbrev Result := Host.Outcome State Fault Refusal

end Sys2Proof.Machine
end

