-- ==== Sys2Proof/Machine/Operands.lean ====
section
/-! DEFINITION. Operand forms: one-bit values in byte fields, the fields of a decoded frame and the
tests on a control byte (R15, R84 to R89, R117). -/

namespace Sys2Proof.Machine

/-- `zext_8`: a one-bit sequence number as a byte, 0x00 or 0x01 (R15, R87). -/
def zext8 (b : Bit) : Byte := BitVec.setWidth 8 b

/-- `not b` on a one-bit value is 1 - b: the toggle and the complement (R15, R117 (b), (c)). -/
def complement (b : Bit) : Bit := 1#1 - b

/-- The type test `c and 0x10`: bit 4 set means control frame (R85, R86 (1)). -/
def isControl (c : Byte) : Bool := (c &&& Config.typeMask) != 0#8

/-- The control byte is decoded byte 0; a frame with no decoded bytes has none (R84, R183). -/
def controlByte (f : Bytes) : Option Byte := f.head?

/-- The sequence byte is decoded byte 1 (R84, R89). -/
def sequenceByte (f : Bytes) : Option Byte := f[1]?

/-- The payload is the remainder from index 3 (R84, R89). -/
def payloadOf (f : Bytes) : Bytes := f.drop Config.metaLen

/-- The received sequence byte is compared as a whole byte with `zext_8` of the counter (R87). -/
def seqMatches (seqf : Byte) (counter : Bit) : Bool := seqf == zext8 counter

end Sys2Proof.Machine
end

