-- ==== Sys2Proof/Machine/Flags.lean ====
section
/-! DEFINITION. The handshake flags and what is derived from them: `busy` (R31) and the enabling
conditions of the step operations (R100). The block has no condition codes and no status flags (R31). -/

namespace Sys2Proof.Machine

/-- "one data frame ... has been transmitted and not yet acknowledged" (R23). -/
def awaiting (s : State) : Bool := s.arq == .awaitingAck

/-- `busy = (sq_valid = 1) or (arq = AwaitingAck)` (R31). -/
def busy (s : State) : Bool := s.sqValid || awaiting s

/-- The frame in `rxpend` is a control frame (R182). -/
def pendIsControl (s : State) : Bool :=
  match s.rxpend with
  | some (c :: _) => isControl c
  | some [] => false
  | none => false

/-- The control byte of the frame in the slot; the slot is read only while full (R29). -/
def slotControlByte (s : State) : Option Byte := if s.pcfFull then controlByte s.pcf else none

/-- The control byte of the frame in `rxpend`. -/
def pendControlByte (s : State) : Option Byte := s.rxpend.bind controlByte

/-- The column "enabled when" of R100 for the eight step operations. The functions are enabled always;
a WB or FRAME row is an RXBYTES (log entries 7 and 9), a CB row an ACKWAIT or RXFRAME for its
control byte (log entry 8). -/
def enabled (i : Instr) (s : State) : Bool :=
  match i with
  | .reset => true
  | .send _ => !busy s
  | .txdata => s.sqValid && !awaiting s
  | .ackwait => awaiting s && s.pcfFull
  | .timeout => s.params.hasTimeout && awaiting s
  | .rxbytes _ => true
  | .extract => s.rxpend.isNone
  | .rxframe => s.rxpend.isSome && !(pendIsControl s && s.pcfFull)
  | .crc8 _ | .crc7 _ | .crc _ _ _ _ | .encodeFrame _ _ | .chunk _ | .mkdata _ _ | .mkctl _ _
  | .ctlclass _ => true
  | .wbStart | .wbEnd | .wbEsc | .wbLit _ => true
  | .cbAck => awaiting s && slotControlByte s == some Config.ctrlAck
  | .cbNak => awaiting s && slotControlByte s == some Config.ctrlNak
  | .cbCtlrsv c => awaiting s && slotControlByte s == some c
  | .cbData c => !isControl c && pendControlByte s == some c
  | .frameNak0 | .frameNak1 | .frameAck0 | .frameAck1 => true

end Sys2Proof.Machine
end

