-- ==== Sys2Proof/Machine/Ops.lean ====
section
/-! DEFINITION. The named operations over the state (R17): outputs, the handshakes of the slot and of
`rxpend`, the accumulator, the return of a value. The block takes no exception and returns from none
(R210, R211): every condition is answered inside the operation that detects it, so there is no
exception entry here. -/

namespace Sys2Proof.Machine

/-- `require c`: "when c is false the operation has no step" (R17). -/
def require (c : Bool) (h : Hold) (k : Result) : Result := if c then k else .refused (.held h)

/-- `transmit(bytes)`: one whole frame to the transport (R17, R56). -/
def transmit (f : Bytes) (s : State) : State := { s with txLog := s.txLog ++ [f] }

/-- `deliver(bytes)`: one payload to the client; it cannot fail (R17, D36). -/
def deliver (p : Bytes) (s : State) : State := { s with dlvLog := s.dlvLog ++ [p] }

/-- `return v` (R17). -/
def returnValue (v : Value) (s : State) : State := { s with result := v }

/-- Append a batch at the tail of the accumulator; past a finite `ACC_CAP` the model faults (R180,
R215). -/
def appendRx (batch : Bytes) (s : State) : Result :=
  let acc := s.rxacc ++ batch
  let fits := match s.params.accCap with
    | none => true
    | some cap => decide (acc.length ≤ cap)
  if fits then .next { s with rxacc := acc } else .fault .accOverflow

/-- The presence bit of `rxpend` cleared (R28, R182). -/
def clearPend (s : State) : State := { s with rxpend := none }

/-- The slot's producer: `pcf <- f; pcf_full <- 1` (R64, R184). -/
def fillSlot (f : Bytes) (s : State) : State := { s with pcf := f, pcfFull := true }

/-- The slot's consumer: `pcf_full <- 0`, "consumed exactly once" (R64, R164). `pcf` keeps its content
(R38, 93 U6; log entry 13). -/
def emptySlot (s : State) : State := { s with pcfFull := false }

/-- `receiverSeq <- not receiverSeq` (R189). -/
def toggleReceiver (s : State) : State := { s with receiverSeq := complement s.receiverSeq }

/-- `senderSeq <- not senderSeq; arq <- Idle` (R164). -/
def acknowledged (s : State) : State := { s with senderSeq := complement s.senderSeq, arq := .idle }

/-- The RESET operation on a station (R230): the values of R37, with `txhold` and `pcf` at two fresh
free values because the spec leaves them unspecified (R231; log entry 12). The model's own fields
stay: the history of R67 is not station state (log entry 17). -/
def resetStation (s : State) : State :=
  { s with
    senderSeq := 0#1, receiverSeq := 0#1, arq := .idle, sendq := [], sqValid := false,
    rxacc := [], rxpend := none, pcfFull := false,
    txhold := Config.freeBytes s.freeCount, pcf := Config.freeBytes (s.freeCount + 1),
    freeCount := s.freeCount + 2 }

end Sys2Proof.Machine
end

