-- ==== Sys2Proof/Machine/Reset.lean ====
section
/-! DEFINITION. RESET (70_reset_and_hazards.md R230). -/

namespace Sys2Proof.Machine

/-- RESET (R230): always enabled; nothing is transmitted. -/
def execReset (s : State) : Result := .next (resetStation s)

end Sys2Proof.Machine
end

