-- ==== Sys2Proof/Machine/Chunker.lean ====
section
/-! DEFINITION. The Frame Chunker: CHUNK and SEND (42_chunker.md R150, R152). -/

namespace Sys2Proof.Machine

/-- CHUNK(payload): the full chunks of 8 bytes, then one of `L mod 8` bytes, possibly empty (R150). -/
def chunksOf (payload : Bytes) : List Bytes :=
  let q := payload.length / Config.chunkLen
  (List.range q).map (fun i => (payload.drop (Config.chunkLen * i)).take Config.chunkLen)
    ++ [payload.drop (Config.chunkLen * q)]

/-- CHUNK as an operation (R150). -/
def execChunk (payload : Bytes) (s : State) : Result :=
  .next (returnValue (.chunks (chunksOf payload)) s)

/-- The payload is within `MAX_PAYLOAD` (R14, R152). -/
def payloadFits (p : Config.Params) (payload : Bytes) : Bool :=
  match p.maxPayload with
  | none => true
  | some n => decide (payload.length ≤ n)

/-- SEND(payload) (R152): enabled while `busy = 0`; a payload over `MAX_PAYLOAD` is the model fault
`PayloadTooLong` (R215). -/
def execSend (payload : Bytes) (s : State) : Result :=
  require (!busy s) .clientBusy <|
    if payloadFits s.params payload then .next { s with sendq := payload, sqValid := true }
    else .fault .payloadTooLong

end Sys2Proof.Machine
end

