-- ==== Sys2Proof/Machine/Checksum.lean ====
section
/-! DEFINITION. The Checksum Engine: CRC, CRC8, CRC7 (40_checksum.md R110 to R113). The `dividend` of R30
is the value these functions carry. -/

namespace Sys2Proof.Machine

/-- The bits of a byte in the order the engine takes them, bit 7 first (R52). -/
def bitsOf (b : Byte) : List Bool :=
  [b.getLsbD 7, b.getLsbD 6, b.getLsbD 5, b.getLsbD 4, b.getLsbD 3, b.getLsbD 2, b.getLsbD 1, b.getLsbD 0]

/-- The input of the engine as a bit stream, bytes in order (R52, R110). -/
def bitStream (bs : Bytes) : List Bool := bs.flatMap bitsOf

/-- STEP (R110, R111): shift left, OR in the new bit, and if bit `deg` is set XOR with `gen`. The
dividend is `deg`+1 bits wide (R30, R110). That what would stand above is dropped, though STEP as written
cuts nothing and XORs "the whole of `gen`" (R111), is this model's choice for a `gen` with a bit above
`deg` or with bit `deg` clear (log entry 26); for every other `gen` nothing ever stands above. -/
def crcStep (gen deg dividend : Nat) (bit : Bool) : Nat :=
  let d := ((dividend <<< 1) ||| bit.toNat) % 2 ^ (deg + 1)
  if d.testBit deg then (d ^^^ gen) % 2 ^ (deg + 1) else d

/-- The dividend after a run of STEPs. -/
def crcRun (gen deg : Nat) (dividend : Nat) (bits : List Bool) : Nat :=
  bits.foldl (crcStep gen deg) dividend

/-- CRC(bytes, gen, deg, flush): the input bits, then `flush` zero bits; the result is
`dividend[7:0]` (R110), cut to `CSUM_W` = 8 bits, the width of a byte (R8). -/
def crc (bs : Bytes) (gen deg flush : Nat) : Byte :=
  BitVec.ofNat 8 (crcRun gen deg 0 (bitStream bs ++ List.replicate flush false))

/-- CRC8(bytes) = CRC(bytes, 0x1D5, 8, 8), the checksum of the station (R112). -/
def crc8 (bs : Bytes) : Byte := crc bs Config.gen Config.deg Config.flush

/-- CRC7(bytes) = CRC(bytes, 0b1001, 3, 6), used by no operation of the station (R113). -/
def crc7 (bs : Bytes) : Byte := crc bs Config.gen7 Config.deg7 Config.flush7

/-- CRC8 as an operation (R112): a pure function, its value returned. -/
def execCrc8 (bs : Bytes) (s : State) : Result := .next (returnValue (.byte (crc8 bs)) s)

/-- CRC7 as an operation (R113). -/
def execCrc7 (bs : Bytes) (s : State) : Result := .next (returnValue (.byte (crc7 bs)) s)

/-- CRC as an operation (R110). -/
def execCrc (bs : Bytes) (gen deg flush : Nat) (s : State) : Result :=
  .next (returnValue (.byte (crc bs gen deg flush)) s)

end Sys2Proof.Machine
end

