-- ==== Sys2Proof/Machine/Framer.lean ====
section
/-! DEFINITION. The Byte-Stuffing Framer: ENCODE and EXTRACT (41_framer.md R130, R135 to R139). -/

namespace Sys2Proof.Machine

/-- The byte is escaped because of its value only: START, END or ESC (R130). -/
def needsEscape (b : Byte) : Bool :=
  b == Config.startByte || b == Config.endByte || b == Config.escByte

/-- One byte as emitted: behind an ESC if it needs one (R130). -/
def stuffByte (b : Byte) : Bytes := if needsEscape b then [Config.escByte, b] else [b]

/-- ENCODE(metadata, payload) (R130). -/
def frameOf (metadata payload : Bytes) : Bytes :=
  Config.startByte :: ((metadata ++ payload).flatMap stuffByte ++ [Config.endByte])

/-- Step 3 and step 4 of EXTRACT (R135): read what follows the START at the head of `kept`. `out` holds
the decoded bytes so far; `esc` says the last byte was an ESC that began a pair, so the next byte is
literal "whatever its value" (R92, R208). An unescaped START drops the frame so far and restarts at
it; an unescaped END completes the frame; running out, also behind a lone ESC, keeps everything from
the surviving START (R137). The answer is the new `rxacc` and the frame. -/
def scanFrame (kept out : Bytes) (esc : Bool) : Bytes → Bytes × Option Bytes
  | [] => (kept, none)
  | b :: rest =>
    if esc then scanFrame kept (out ++ [b]) false rest
    else if b == Config.escByte then scanFrame kept out true rest
    else if b == Config.endByte then (rest, some out)
    else if b == Config.startByte then scanFrame (b :: rest) [] false rest
    else scanFrame kept (out ++ [b]) false rest

/-- Step 1 of EXTRACT: discard everything before the first START byte; escapes in the junk are not
tracked (R136). -/
def fromStart (acc : Bytes) : Bytes := acc.dropWhile (· != Config.startByte)

/-- EXTRACT on an accumulator: the new `rxacc` and the frame, if one is complete (R135). -/
def extractFrom (acc : Bytes) : Bytes × Option Bytes :=
  match fromStart acc with
  | [] => ([], none)
  | b :: rest => scanFrame (b :: rest) [] false rest

/-- ENCODE as an operation (R130). -/
def execEncodeFrame (metadata payload : Bytes) (s : State) : Result :=
  .next (returnValue (.bytes (frameOf metadata payload)) s)

/-- EXTRACT (R135): enabled while `rxpend = none`; a complete frame is stored in `rxpend` and
returned. -/
def execExtract (s : State) : Result :=
  require s.rxpend.isNone .framePending <|
    let r := extractFrom s.rxacc
    .next (returnValue (.frame r.2) { s with rxacc := r.1, rxpend := r.2 })

end Sys2Proof.Machine
end

