-- ==== Sys2Proof/Machine/ArqSend.lean ====
section
/-! DEFINITION. The ARQ engine, send path: MKDATA, TXDATA, CTLCLASS, ACKWAIT, TIMEOUT (43_arq_send.md
R160 to R166). -/

namespace Sys2Proof.Machine

/-- MKDATA(s, chunk): control byte 0, sequence byte, checksum over the chunk, the chunk (R81, R161). -/
def mkdata (seq : Bit) (chunk : Bytes) : Bytes :=
  frameOf [Config.ctrlData, zext8 seq, crc8 chunk] chunk

/-- The next chunk, what stays in `sendq`, and the new `sq_valid`: 8 bytes with a final chunk still
owed, or all the 0 to 7 remaining bytes (R153, R162). -/
def takeChunk (q : Bytes) : Bytes × Bytes × Bool :=
  if Config.chunkLen ≤ q.length then (q.take Config.chunkLen, q.drop Config.chunkLen, true)
  else (q, [], false)

/-- CTLCLASS(c): length, then checksum, then the exact value 0x11; everything else with a good checksum
is NAK (R163, R208). -/
def ctlClass : Bytes → CtlClass
  | [c, q, k] =>
    if k != crc8 [c, q] then .malformed
    else if c == Config.ctrlAck then .ack
    else .nak
  | _ => .malformed

/-- A control frame that acknowledges the outstanding frame: a well-formed ACK whose sequence byte
equals `senderSeq` (R164). -/
def acknowledges (c : Bytes) (counter : Bit) : Bool :=
  ctlClass c == .ack && (sequenceByte c).any (seqMatches · counter)

/-- ACKWAIT's effect (R164): the slot is consumed; a matching ACK is success, anything else retransmits
the identical frame. -/
def consumeSlot (s : State) : State :=
  if acknowledges s.pcf s.senderSeq then acknowledged (emptySlot s)
  else transmit s.txhold (emptySlot s)

/-- ACKWAIT restricted to slots that pass a test; `fun _ => true` is ACKWAIT itself (R164). -/
def ackwaitWhen (ok : Option Byte → Bool) (s : State) : Result :=
  require (awaiting s) .noFrameOutstanding <|
    require s.pcfFull .slotEmpty <|
      require (ok (slotControlByte s)) .otherControlByte <| .next (consumeSlot s)

/-- MKDATA as an operation (R161). -/
def execMkdata (seq : Bit) (chunk : Bytes) (s : State) : Result :=
  .next (returnValue (.bytes (mkdata seq chunk)) s)

/-- CTLCLASS as an operation (R163). -/
def execCtlclass (frame : Bytes) (s : State) : Result :=
  .next (returnValue (.ctl (ctlClass frame)) s)

/-- TXDATA (R162): take the next chunk, build its frame, transmit it, start waiting. The slot is
neither examined nor emptied. -/
def execTxdata (s : State) : Result :=
  require s.sqValid .nothingToSend <|
    require (!awaiting s) .frameOutstanding <|
      let t := takeChunk s.sendq
      let f := mkdata s.senderSeq t.1
      .next (transmit f { s with sendq := t.2.1, sqValid := t.2.2, txhold := f, arq := .awaitingAck })

/-- ACKWAIT (R164). -/
def execAckwait (s : State) : Result := ackwaitWhen (fun _ => true) s

/-- TIMEOUT (R166): "it changes no state at all; it only emits a copy of the frame". -/
def execTimeout (s : State) : Result :=
  require (awaiting s) .noFrameOutstanding <|
    require s.params.hasTimeout .noTimer <| .next (transmit s.txhold s)

end Sys2Proof.Machine
end

