-- ==== Sys2Proof/Machine/ArqReceive.lean ====
section
/-! DEFINITION. The ARQ engine, receive path: RXBYTES, RXFRAME, MKCTL (44_arq_receive.md R180 to
R189). -/

namespace Sys2Proof.Machine

/-- MKCTL(ctrl, seqbyte): the checksum covers the control and the sequence byte as transmitted (R82,
R186). -/
def mkctl (ctrl seqbyte : Byte) : Bytes := frameOf [ctrl, seqbyte, crc8 [ctrl, seqbyte]] []

/-- The case a frame falls under, tried in this order: empty, type bit, length below 3, checksum,
sequence (R182, R208). -/
def rxCase (receiverSeq : Bit) : Bytes → RxCase
  | [] => .empty
  | c :: rest =>
    if isControl c then .control
    else match rest with
      | seqf :: csum :: payload =>
        if crc8 payload != csum then .mismatch
        else if seqMatches seqf receiverSeq then .accept
        else .duplicate
      | _ => .runt

/-- RXFRAME's effect on the frame `f` taken from `rxpend` (R182 to R189). -/
def processFrame (f : Bytes) (s : State) : Result :=
  let r := s.receiverSeq
  let t := clearPend s
  match rxCase r f with
  | .empty => .next t
  | .control => require (!s.pcfFull) .slotFull (.next (fillSlot f t))
  | .runt => .next (transmit (mkctl Config.ctrlNak (zext8 r)) t)
  | .mismatch => .next (transmit (mkctl Config.ctrlNak (zext8 r)) t)
  | .duplicate => .next (transmit (mkctl Config.ctrlAck (zext8 (complement r))) t)
  | .accept =>
    .next (toggleReceiver (transmit (mkctl Config.ctrlAck (zext8 r)) (deliver (payloadOf f) t)))

/-- MKCTL as an operation (R186). -/
def execMkctl (ctrl seqbyte : Byte) (s : State) : Result :=
  .next (returnValue (.bytes (mkctl ctrl seqbyte)) s)

/-- RXBYTES(batch) (R180). -/
def execRxbytes (batch : Bytes) (s : State) : Result := appendRx batch s

/-- RXFRAME (R182). -/
def execRxframe (s : State) : Result :=
  match s.rxpend with
  | none => .refused (.held .noFramePending)
  | some f => processFrame f s

end Sys2Proof.Machine
end

