-- ==== Sys2Proof/Machine/Wire.lean ====
section
/-! DEFINITION. The rows of the table that are not operations of R100. A WB row is the arrival of that
wire byte and a FRAME row the arrival of that frame's wire bytes, both RXBYTES (R80, R90, R180; log
entries 7 and 9). A CB row is the operation that makes R86's test on a frame with that decoded byte
0: "test (1) is made by the receive path", so DATA is an RXFRAME; "tests (2) to (4) are made by the
send path when it consumes the slot", so ACK, NAK and CTLRSV are an ACKWAIT (log entry 8). -/

namespace Sys2Proof.Machine

/-- START arrives: appended like any byte; EXTRACT reads it as the begin of a frame (R80, R180). -/
def execWbStart (s : State) : Result := appendRx [Config.startByte] s

/-- END arrives (R80, R180). -/
def execWbEnd (s : State) : Result := appendRx [Config.endByte] s

/-- ESC arrives (R80, R180). -/
def execWbEsc (s : State) : Result := appendRx [Config.escByte] s

/-- A literal data byte arrives (R80, R180). -/
def execWbLit (d : Byte) (s : State) : Result := appendRx [d] s

/-- The send path consumes a control frame whose control byte is ACK (R86 (2), R164). -/
def execCbAck (s : State) : Result := ackwaitWhen (· == some Config.ctrlAck) s

/-- The send path consumes a control frame whose control byte is NAK (R86 (3), R164). -/
def execCbNak (s : State) : Result := ackwaitWhen (· == some Config.ctrlNak) s

/-- The send path consumes a control frame with a reserved pattern, "treated as NAK" (R86 (4), R163). -/
def execCbCtlrsv (c : Byte) (s : State) : Result := ackwaitWhen (· == some c) s

/-- The receive path processes a frame whose control byte has bit 4 clear: "data frame; the other seven
bits are not examined" (R86 (1), R182). -/
def execCbData (c : Byte) (s : State) : Result :=
  match s.rxpend with
  | none => .refused (.held .noFramePending)
  | some f => require (!isControl c && controlByte f == some c) .otherControlByte (processFrame f s)

/-- NAK(0) arrives: 7B 10 00 B0 7D (R90). -/
def execFrameNak0 (s : State) : Result := appendRx nak0Wire s

/-- NAK(1) arrives: 7B 10 01 65 7D (R90). -/
def execFrameNak1 (s : State) : Result := appendRx nak1Wire s

/-- ACK(0) arrives: 7B 11 00 BB 7D (R90). -/
def execFrameAck0 (s : State) : Result := appendRx ack0Wire s

/-- ACK(1) arrives: 7B 11 01 6E 7D (R90). -/
def execFrameAck1 (s : State) : Result := appendRx ack1Wire s

end Sys2Proof.Machine
end

