-- ==== Sys2Proof/Machine/Dispatch.lean ====
section
/-! DEFINITION. One arm per row of the opcode table. -/

namespace Sys2Proof.Machine

/-- The meaning of an instruction. -/
def exec (i : Instr) (s : State) : Host.Outcome State Fault Refusal :=
  match i with
  | .reset => Sys2Proof.Machine.execReset s
  | .send payload => Sys2Proof.Machine.execSend payload s
  | .txdata => Sys2Proof.Machine.execTxdata s
  | .ackwait => Sys2Proof.Machine.execAckwait s
  | .timeout => Sys2Proof.Machine.execTimeout s
  | .rxbytes batch => Sys2Proof.Machine.execRxbytes batch s
  | .extract => Sys2Proof.Machine.execExtract s
  | .rxframe => Sys2Proof.Machine.execRxframe s
  | .crc8 bytes => Sys2Proof.Machine.execCrc8 bytes s
  | .crc7 bytes => Sys2Proof.Machine.execCrc7 bytes s
  | .crc bytes gen deg flush => Sys2Proof.Machine.execCrc bytes gen deg flush s
  | .encodeFrame metadata payload => Sys2Proof.Machine.execEncodeFrame metadata payload s
  | .chunk payload => Sys2Proof.Machine.execChunk payload s
  | .mkdata seq data => Sys2Proof.Machine.execMkdata seq data s
  | .mkctl control sequence => Sys2Proof.Machine.execMkctl control sequence s
  | .ctlclass frame => Sys2Proof.Machine.execCtlclass frame s
  | .wbStart => Sys2Proof.Machine.execWbStart s
  | .wbEnd => Sys2Proof.Machine.execWbEnd s
  | .wbEsc => Sys2Proof.Machine.execWbEsc s
  | .wbLit d => Sys2Proof.Machine.execWbLit d s
  | .cbAck => Sys2Proof.Machine.execCbAck s
  | .cbNak => Sys2Proof.Machine.execCbNak s
  | .cbCtlrsv c => Sys2Proof.Machine.execCbCtlrsv c s
  | .cbData c => Sys2Proof.Machine.execCbData c s
  | .frameNak0 => Sys2Proof.Machine.execFrameNak0 s
  | .frameNak1 => Sys2Proof.Machine.execFrameNak1 s
  | .frameAck0 => Sys2Proof.Machine.execFrameAck0 s
  | .frameAck1 => Sys2Proof.Machine.execFrameAck1 s

end Sys2Proof.Machine
end

