-- ==== Sys2Proof/Machine/Step.lean ====
section
/-! DEFINITION. The step: take the environment's next issue, decode it, run it. The station fetches no
instruction (R24, R65); which enabled operation steps next is the environment's free choice (R7,
R209), held in `sched` as data (log entry 1). -/

namespace Sys2Proof.Machine

/-- One step: the first issue leaves `sched`, and the instruction it decodes to runs. -/
def step (s : State) : Host.Outcome State Fault Refusal :=
  match s.sched with
  | [] => .refused .noEvent
  | e :: rest =>
    match decodeIssue e with
    | .error r => .refused (.undecodable r)
    | .ok i => exec i { s with sched := rest }

/-- The state with an issue for a word of the opcode table put in front of `sched`, where `step` takes
its next one (log entries 3 and 4). -/
def State.withFetchWord (s : State) (nbits w : Nat) : State :=
  { s with sched := tableIssue nbits w :: s.sched }

end Sys2Proof.Machine
end

