-- ==== Sys2Proof/Machine/Conditions.lean ====
section
/-! DEFINITION. The error conditions (a) to (e) an operation detects (60_exceptions.md R200, R208). The
machine records none of them (R201) and each is an ordinary step (R202), so this is a function
beside the meanings, read by nothing in them (log entry 22). -/

namespace Sys2Proof.Machine

/-- After a START, an unescaped START comes before any unescaped END: step 3 of EXTRACT drops a damaged
frame (R135). `esc` is as in `scanFrame`. -/
def restarts (esc : Bool) : Bytes → Bool
  | [] => false
  | b :: rest =>
    if esc then restarts false rest
    else if b == Config.escByte then restarts true rest
    else if b == Config.endByte then false
    else if b == Config.startByte then true
    else restarts false rest

/-- The conditions of one EXTRACT: (b) when bytes are discarded, (a) on a `none` that keeps bytes
(R135, R200). -/
def extractConditions (acc : Bytes) : List Condition :=
  let kept := fromStart acc
  let r := extractFrom acc
  (if kept.length < acc.length || restarts false (kept.drop 1) then [.damaged] else [])
    ++ (if r.2.isNone && !r.1.isEmpty then [.incomplete] else [])

/-- The condition of one RXFRAME: (b) for an empty frame, (c) for a runt or a checksum mismatch, (d)
for a duplicate (R182, R200). -/
def frameConditions (receiverSeq : Bit) (f : Bytes) : List Condition :=
  match rxCase receiverSeq f with
  | .empty => [.damaged]
  | .control => []
  | .runt => [.checksumMismatch]
  | .mismatch => [.checksumMismatch]
  | .duplicate => [.duplicate]
  | .accept => []

/-- The condition of consuming the slot: (e) for a malformed frame; a NAK or a mismatched ACK is none
(R200). -/
def slotConditions (s : State) : List Condition :=
  if ctlClass s.pcf == .malformed then [.controlLost] else []

/-- The conditions an enabled operation detects; an operation that is held detects none. -/
def conditions (i : Instr) (s : State) : List Condition :=
  if !enabled i s then [] else
  match i with
  | .extract => extractConditions s.rxacc
  | .rxframe => (s.rxpend.map (frameConditions s.receiverSeq)).getD []
  | .cbData _ => (s.rxpend.map (frameConditions s.receiverSeq)).getD []
  | .ackwait => slotConditions s
  | .cbAck => slotConditions s
  | .cbNak => slotConditions s
  | .cbCtlrsv _ => slotConditions s
  | .timeout => [.controlLost]
  | .reset | .send _ | .txdata | .rxbytes _ | .crc8 _ | .crc7 _ | .crc _ _ _ _ | .encodeFrame _ _
  | .chunk _ | .mkdata _ _ | .mkctl _ _ | .ctlclass _ | .wbStart | .wbEnd | .wbEsc | .wbLit _
  | .frameNak0 | .frameNak1 | .frameAck0 | .frameAck1 => []

end Sys2Proof.Machine
end

