-- ==== Sys2Proof/Machine/Link.lean ====
section
/-! DEFINITION. A link: two stations and two channels (R3, R58, R214), the transport's contract (R58,
R66), the pseudo-operations of R95 and quiescence (R234). The machine of `step` is one station; this
file puts two of them together (log entry 20). -/

namespace Sys2Proof.Machine

/-- The two ends of a link. They are identical and have no identifiers of their own (R214). -/
inductive Side where
  | a
  | b
  deriving DecidableEq, Repr

/-- The far end. -/
def Side.other : Side → Side
  | .a => .b
  | .b => .a

/-- What the transport does to one byte: "delivered unchanged, delivered with any other value, or not
delivered" (R58). -/
inductive Fate where
  | keep
  | replace (v : Byte)
  | drop
  deriving DecidableEq, Repr

/-- Two stations and, per direction, what was passed to `transmit` and is not yet resolved by the
transport: frames, oldest first, the first one perhaps in part. `reqA` and `reqB` are the model's own
record of the payloads whose SEND was accepted, oldest first. -/
structure Link where
  a : State
  b : State
  ab : List Bytes
  ba : List Bytes
  reqA : List Bytes
  reqB : List Bytes
  deriving DecidableEq, Repr

/-- The station at an end. -/
def Link.station (l : Link) : Side → State
  | .a => l.a
  | .b => l.b

/-- The link with another state at an end. -/
def Link.setStation (l : Link) (e : Side) (s : State) : Link :=
  match e with
  | .a => { l with a := s }
  | .b => { l with b := s }

/-- What is in flight toward an end. -/
def Link.toward (l : Link) : Side → List Bytes
  | .a => l.ba
  | .b => l.ab

/-- The link with another channel content toward an end. -/
def Link.setToward (l : Link) (e : Side) (c : List Bytes) : Link :=
  match e with
  | .a => { l with ba := c }
  | .b => { l with ab := c }

/-- The payloads accepted from the client at an end. -/
def Link.requests (l : Link) : Side → List Bytes
  | .a => l.reqA
  | .b => l.reqB

/-- The link with one more accepted payload. -/
def Link.addRequest (l : Link) (e : Side) (p : Bytes) : Link :=
  match e with
  | .a => { l with reqA := l.reqA ++ [p] }
  | .b => { l with reqB := l.reqB ++ [p] }

/-- The frames one operation transmitted: what it added to the log (R56, R67). -/
def sentBy (before after : State) : List Bytes := after.txLog.drop before.txLog.length

/-- A station has moved: its new state, and its transmissions on the channel toward the far end. -/
def Link.moved (l : Link) (e : Side) (s' : State) : Link :=
  (l.setToward e.other (l.toward e.other ++ sentBy (l.station e) s')).setStation e s'

/-- Bytes after the transport's fates; a byte with no fate stays in the channel (R58). Order is kept,
nothing is duplicated and nothing inserted. -/
def applyFates : List Fate → Bytes → Bytes
  | [], _ => []
  | _ :: _, [] => []
  | .keep :: fs, b :: bs => b :: applyFates fs bs
  | .replace v :: fs, _ :: bs => v :: applyFates fs bs
  | .drop :: fs, _ :: bs => applyFates fs bs

/-- The channel after its `n` oldest bytes are resolved. -/
def dropBytes (n : Nat) : List Bytes → List Bytes
  | [] => []
  | f :: fs => if f.length ≤ n then dropBytes (n - f.length) fs else f.drop n :: fs

/-- The instruction puts bytes on line-in itself. At a station of a link the channel is the only source
of line-in bytes: "deliver only bytes derived from what the peer transmitted" (R66). -/
def injects : Instr → Bool
  | .rxbytes _ => true
  | .wbStart | .wbEnd | .wbEsc | .wbLit _ => true
  | .frameNak0 | .frameNak1 | .frameAck0 | .frameAck1 => true
  | .reset | .send _ | .txdata | .ackwait | .timeout | .extract | .rxframe | .crc8 _ | .crc7 _
  | .crc _ _ _ _ | .encodeFrame _ _ | .chunk _ | .mkdata _ _ | .mkctl _ _ | .ctlclass _
  | .cbAck | .cbNak | .cbCtlrsv _ | .cbData _ => false

/-- What can happen on a link. -/
inductive LinkEvent where
  /-- An operation steps at a station, issued by its client, timer, platform or one of its paths. -/
  | op (e : Side) (i : Instr)
  /-- The transport resolves the oldest bytes in flight toward an end, one per fate, and hands what is
  left of them to that station as one RXBYTES (R58). -/
  | deliver (dest : Side) (fates : List Fate)
  /-- Both stations are reset together (R232). What is in flight stays in flight: a reset empties no
  channel (91 N8), and old frames in a channel at reset are the hazard of R233. That the event is
  allowed in every state, with the duty to have both channels empty (R66, R232) left to claims as a
  premise, is this model's choice (log entry 20). -/
  | resetBoth
  deriving DecidableEq, Repr

/-- The payload a SEND hands over is recorded with the link. -/
def Link.record (l : Link) (e : Side) : Instr → Link
  | .send p => l.addRequest e p
  | _ => l

/-- One step of a link. -/
def linkStep (x : LinkEvent) (l : Link) : Host.Outcome Link Fault Refusal :=
  match x with
  | .op e i =>
    if injects i then .refused .insertion
    else match exec i (l.station e) with
      | .next s' => .next ((l.moved e s').record e i)
      | .fault f => .fault f
      | .refused r => .refused r
  | .deliver e fates =>
    match exec (.rxbytes (applyFates fates (l.toward e).flatten)) (l.station e) with
    | .next s' => .next ((l.moved e s').setToward e (dropBytes fates.length (l.toward e)))
    | .fault f => .fault f
    | .refused r => .refused r
  | .resetBoth => .next { l with a := resetStation l.a, b := resetStation l.b }

/-- A link right after both stations were reset with both channels empty (R232). Each end has open
parameters of its own: R214 calls the stations identical and R13, R14 state the parameters of one
station, so that the two ends may differ in them is this model's choice (log entry 20). -/
def Link.fresh (pa pb : Config.Params) : Link where
  a := { State.reset with params := pa }
  b := { State.reset with params := pb }
  ab := []
  ba := []
  reqA := []
  reqB := []

/-- The action by which the channel toward `e` hands over its oldest frame "whole and unchanged" (R95,
`xfer`). Where R95 is silent this is the model's choice (log entry 20): with nothing in flight it hands
over an empty batch, and of a frame resolved in part it hands over the remainder. -/
def Link.carry (l : Link) (e : Side) : LinkEvent :=
  .deliver e (List.replicate ((l.toward e).headD []).length .keep)

/-- The action by which the channel toward `e` loses its oldest frame (R95, `drop`). Where R95 is silent
this is the model's choice (log entry 20): with nothing in flight it loses nothing and hands over an
empty batch, and of a frame resolved in part it loses the remainder. -/
def Link.lose (l : Link) (e : Side) : LinkEvent :=
  .deliver e (List.replicate ((l.toward e).headD []).length .drop)

/-- `pump` (R95): EXTRACT, and RXFRAME after each EXTRACT that returned a frame, until EXTRACT returns
`none` or RXFRAME is held. The first argument bounds the rounds. R95 begins with EXTRACT, which has no
step while a frame waits in `rxpend`; that `pump` then begins with RXFRAME on that frame is this
model's choice (log entry 20). -/
def pump : Nat → State → State
  | 0, s => s
  | n + 1, s =>
    if s.rxpend.isSome then
      match exec .rxframe s with
      | .next s' => pump n s'
      | .fault _ => s
      | .refused _ => s
    else
      match exec .extract s with
      | .next s' => if s'.rxpend.isSome then pump n s' else s'
      | .fault _ => s
      | .refused _ => s

/-- Rounds that suffice for `pump`: each frame takes two, and a frame has at least two wire bytes. -/
def pumpRounds (s : State) : Nat := s.rxacc.length + 2

/-- `xfer(X, Y)` with `e` = Y (R95). -/
def Link.xfer (l : Link) (e : Side) : Host.Outcome Link Fault Refusal :=
  match linkStep (l.carry e) l with
  | .next l' => .next (l'.moved e (pump (pumpRounds (l'.station e)) (l'.station e)))
  | .fault f => .fault f
  | .refused r => .refused r

/-- `drop(X)` with `e` = the end X sends to (R95). -/
def Link.dropFrame (l : Link) (e : Side) : Host.Outcome Link Fault Refusal := linkStep (l.lose e) l

/-- A station at rest: `busy = 0`, `rxpend = none`, and an EXTRACT would return `none` (R234). -/
def atRest (s : State) : Bool := !busy s && s.rxpend.isNone && (extractFrom s.rxacc).2.isNone

/-- Quiescence of a link (R234); the slots may be full. -/
def Link.quiescent (l : Link) : Bool :=
  atRest l.a && atRest l.b && l.ab.flatten.isEmpty && l.ba.flatten.isEmpty

end Sys2Proof.Machine
end

