-- ==== Sys2Proof/Safety.lean ====
section
/-! DEFINITION. The terms in which claims are stated: the transition relation over every choice of the
environment, the invariants of R36, the wire grammar of R83, the literal pseudocode of EXTRACT, and
runs of a link whose transport only loses whole frames. -/

namespace Sys2Proof.Safety

open Sys2Proof.Machine

/-! ### The transition relation (R7, R209, 93 U9) -/

/-- Some operation of some agent takes `s` to `t`: "whenever several operations are enabled, any one may
step next". -/
def CanStep (s t : State) : Prop := ∃ i : Instr, exec i s = .next t

/-- States reached from a station that has been reset, whatever the environment does. -/
def Reachable (s : State) : Prop :=
  ∃ s₀ : State, Relation.ReflTransGen CanStep (resetStation s₀) s

/-- The operations by which a client's blocking call makes progress, and those of the receive path and
the transport that may come between (R95). -/
def callStep (i : Instr) : Bool :=
  match i with
  | .txdata | .ackwait | .timeout | .rxbytes _ | .extract | .rxframe => true
  | .reset | .send _ | .crc8 _ | .crc7 _ | .crc _ _ _ _ | .encodeFrame _ _ | .chunk _ | .mkdata _ _
  | .mkctl _ _ | .ctlclass _ | .wbStart | .wbEnd | .wbEsc | .wbLit _ | .cbAck | .cbNak
  | .cbCtlrsv _ | .cbData _ | .frameNak0 | .frameNak1 | .frameAck0 | .frameAck1 => false

/-- `send(p)` (R95): SEND p, then steps until `busy = 0`; the call returns in `t`. -/
def SendCall (p : Bytes) (s t : State) : Prop :=
  ∃ s₁ : State, exec (.send p) s = .next s₁ ∧
    Relation.ReflTransGen (fun x y => ∃ i, callStep i = true ∧ exec i x = .next y) s₁ t ∧
    busy t = false

/-! ### The wire grammar (R83) -/

/-- `item* END` with `item = LIT | ESC START | ESC END | ESC ESC`. -/
def isItemsEnd : Bytes → Bool
  | [] => false
  | [b] => b == Config.endByte
  | b :: c :: rest =>
    if b == Config.escByte then needsEscape c && isItemsEnd rest
    else !needsEscape b && isItemsEnd (c :: rest)

/-- `frame = START item* END` (R83). -/
def isWireFrame : Bytes → Bool
  | [] => false
  | b :: rest => b == Config.startByte && isItemsEnd rest

/-! ### Invariants (R36) -/

/-- What holds in every state reachable from reset: R36 (a), (b), (c), the constraint of R14 on
`ACC_CAP`, and that every frame ever transmitted is one the grammar of R83 gives. -/
structure StationInv (s : State) : Prop where
  /-- (a) `sq_valid = 0` implies `sendq = []` -/
  queue : s.sqValid = false → s.sendq = []
  /-- (b) `arq = AwaitingAck` implies `txhold = MKDATA(senderSeq, c)` for a chunk c -/
  held : s.arq = .awaitingAck → ∃ c : Bytes, c.length ≤ 8 ∧ s.txhold = mkdata s.senderSeq c
  /-- (c) `pcf_full = 1` implies `|pcf| >= 1` and `pcf[0][4] = 1` -/
  slot : s.pcfFull = true → ∃ c f, s.pcf = c :: f ∧ isControl c = true
  /-- R14 -/
  params : s.params.wf = true
  /-- R56, R83 -/
  wire : ∀ f ∈ s.txLog, isWireFrame f = true

/-! ### EXTRACT, as the pseudocode of R135 has it -/

/-- The `while` loop of R135 with its index `j` into `rxacc`; the first argument bounds the rounds. -/
def extractLoop : Nat → Bytes → Bytes → Nat → Bytes × Option Bytes
  | 0, acc, _, _ => (acc, none)
  | n + 1, acc, out, j =>
    if j < acc.length then
      let b := acc.getD j 0#8
      if b = Config.escByte then
        if j + 1 < acc.length then extractLoop n acc (out ++ [acc.getD (j + 1) 0#8]) (j + 2)
        else (acc, none)
      else if b = Config.endByte then (acc.drop (j + 1), some out)
      else if b = Config.startByte then extractLoop n (acc.drop j) [] 1
      else extractLoop n acc (out ++ [b]) (j + 1)
    else (acc, none)

/-- R135 by index: `k` is "the least index with `rxacc[k] = START`, or `|rxacc|`". -/
def extractIndexed (acc : Bytes) : Bytes × Option Bytes :=
  let k := acc.findIdx (· == Config.startByte)
  let acc' := acc.drop k
  if acc'.length = 0 then (acc', none) else extractLoop (acc'.length + 1) acc' [] 1

/-- EXTRACT repeated until it returns `none`: the frames taken from an accumulator in order, and what
stays in it (R95 `pump`, R138). -/
inductive ExtractAll : Bytes → List Bytes → Bytes → Prop where
  | done {acc kept : Bytes} : extractFrom acc = (kept, none) → ExtractAll acc [] kept
  | more {acc acc' f kept : Bytes} {fs : List Bytes} :
      extractFrom acc = (acc', some f) → ExtractAll acc' fs kept → ExtractAll acc (f :: fs) kept

/-! ### Chunks, taken one at a time (R153) -/

/-- The chunks TXDATA takes from a `sendq`, up to the one that clears `sq_valid`; the first argument
bounds their count. -/
def lazyChunks : Nat → Bytes → List Bytes
  | 0, _ => []
  | n + 1, q => if (takeChunk q).2.2 then (takeChunk q).1 :: lazyChunks n (takeChunk q).2.1 else [(takeChunk q).1]

/-! ### CRC as polynomial division (R8, R111) -/

/-- A byte sequence as one number, the first byte's bit 7 its highest bit (R52): bit i is the
coefficient of x^i. -/
def messageNumber (bs : Bytes) : Nat := bs.foldl (fun n b => 256 * n + b.toNat) 0

/-- The GF(2) sum of shifted copies of a generator: its multiple by the polynomial whose exponents are
listed. "XOR with `gen` is subtraction of the generator polynomial over GF(2)" (R111). -/
def generatorMultiple (gen : Nat) (shifts : List Nat) : Nat :=
  shifts.foldl (fun acc k => acc ^^^ (gen <<< k)) 0

/-- Bit `i` of byte `k` flipped. -/
def flipBit (bs : Bytes) (k i : Nat) : Bytes := bs.modify k (· ^^^ (1#8 <<< i))

/-- `a xor b` taken byte by byte (R116 (b)). -/
def xorBytes (a b : Bytes) : Bytes := List.zipWith (· ^^^ ·) a b

/-! ### Who reads and writes what (R22, R38, R231) -/

/-- A change of the next state, if there is one. -/
def mapNext (f : State → State) : Result → Result
  | .next s => .next (f s)
  | .fault e => .fault e
  | .refused r => .refused r

/-- The bytes an instruction puts on line-in, if it does: RXBYTES, and the WB and FRAME rows. -/
def lineInBytes : Instr → Option Bytes
  | .rxbytes b => some b
  | .wbStart => some [0x7B#8]
  | .wbEnd => some [0x7D#8]
  | .wbEsc => some [0x5C#8]
  | .wbLit d => some [d]
  | .frameNak0 => some [0x7B#8, 0x10#8, 0x00#8, 0xB0#8, 0x7D#8]
  | .frameNak1 => some [0x7B#8, 0x10#8, 0x01#8, 0x65#8, 0x7D#8]
  | .frameAck0 => some [0x7B#8, 0x11#8, 0x00#8, 0xBB#8, 0x7D#8]
  | .frameAck1 => some [0x7B#8, 0x11#8, 0x01#8, 0x6E#8, 0x7D#8]
  | .reset | .send _ | .txdata | .ackwait | .timeout | .extract | .rxframe | .crc8 _ | .crc7 _
  | .crc _ _ _ _ | .encodeFrame _ _ | .chunk _ | .mkdata _ _ | .mkctl _ _ | .ctlclass _
  | .cbAck | .cbNak | .cbCtlrsv _ | .cbData _ => none

/-- ACKWAIT, or a CB row that is an ACKWAIT for its control byte (log entry 8): the consumers of the
slot. -/
def consumesSlot : Instr → Bool
  | .ackwait | .cbAck | .cbNak | .cbCtlrsv _ => true
  | .reset | .send _ | .txdata | .timeout | .rxbytes _ | .extract | .rxframe | .crc8 _ | .crc7 _
  | .crc _ _ _ _ | .encodeFrame _ _ | .chunk _ | .mkdata _ _ | .mkctl _ _ | .ctlclass _
  | .wbStart | .wbEnd | .wbEsc | .wbLit _ | .cbData _ | .frameNak0 | .frameNak1 | .frameAck0
  | .frameAck1 => false

/-- The reset values of R37, for the elements it gives a value. -/
def HasResetValues (s : State) : Prop :=
  s.senderSeq = 0#1 ∧ s.receiverSeq = 0#1 ∧ s.arq = .idle ∧ s.sendq = [] ∧ s.sqValid = false ∧
    s.rxacc = [] ∧ s.rxpend = none ∧ s.pcfFull = false

/-! ### Runs of a link -/

/-- The transport keeps or loses whole frames, no station is reset: the premise of R191's "simulate
dropping every other control frame", for every pattern of loss. -/
def wholeFrames (l : Link) : LinkEvent → Prop
  | .op _ i => i ≠ .reset
  | .deliver e fates => LinkEvent.deliver e fates = l.carry e ∨ LinkEvent.deliver e fates = l.lose e
  | .resetBoth => False

/-- A run over a transport that loses whole frames and nothing else. -/
def LossyRun : Link → Link → Prop :=
  Relation.ReflTransGen (fun l l' => ∃ x : LinkEvent, wholeFrames l x ∧ linkStep x l = .next l')

/-- A link after a list of events, the first one first; nothing is assumed of the transport but R58. -/
def linkRun : List LinkEvent → Link → Host.Outcome Link Fault Refusal
  | [], l => .next l
  | x :: xs, l =>
    match linkStep x l with
    | .next l' => linkRun xs l'
    | .fault f => .fault f
    | .refused r => .refused r

/-- The event resets a station. -/
def resets : LinkEvent → Bool
  | .op _ i => i == .reset
  | .deliver _ _ => false
  | .resetBoth => true

/-- What the transport does to the bytes an event resolves (R58). -/
def fatesOf : LinkEvent → List Fate
  | .deliver _ fates => fates
  | .op _ _ => []
  | .resetBoth => []

/-- The chunks of the payloads accepted at an end, in order (R150, R151). -/
def requestedChunks (l : Link) (e : Side) : List Bytes := (l.requests e).flatMap chunksOf

end Sys2Proof.Safety
end

