-- ==== Sys2Proof/Certificates/Slice0/Obligations.lean ====
section
/-! DEFINITION. The statements for the provers, from the spec's numbered rules. Where a statement speaks of
a thing this model chose, its docstring names the log entry. -/

open Sys2Proof Sys2Proof.Machine Sys2Proof.Safety

/-! ### Reset -/

/-- R230: RESET is always enabled, gives every element R37 gives a value its reset value, and transmits
and delivers nothing; the machine starts with the same values. That the two logs and the parameters
stay across RESET is this model's choice (log entry 17). -/
def Obligations.ResetGivesTheResetValues : Prop :=
  HasResetValues State.reset ∧
  ∀ s : State, ∃ t, exec .reset s = .next t ∧ HasResetValues t ∧
    t.txLog = s.txLog ∧ t.dlvLog = s.dlvLog ∧ t.params = s.params

/-! ### Checksum Engine -/

/-- R112 with its corner cases. -/
def Obligations.Crc8IsTheStationsChecksum : Prop :=
  (∀ bs : Bytes, crc8 bs = crc bs 0x1D5 8 8) ∧
  crc8 [] = 0x00#8 ∧ crc8 [0x00#8] = 0x00#8 ∧
  Function.Bijective (fun b : Byte => crc8 [b]) ∧
  crc8 [0x18#8] = 0x7B#8 ∧ crc8 [0x0F#8] = 0x7D#8 ∧ crc8 [0x33#8] = 0x5C#8 ∧
  crc8 [0x41#8, 0x42#8, 0x43#8, 0x44#8, 0x45#8, 0x46#8, 0x47#8, 0x48#8] = 0xC7#8

/-- R113: the constants, the range and that the flush width does not matter. -/
def Obligations.Crc7IsBelowEight : Prop :=
  ∀ bs : Bytes, crc7 bs = crc bs 0b1001 3 6 ∧ (crc7 bs).toNat < 8 ∧
    crc bs 0b1001 3 3 = crc7 bs ∧ crc bs 0b1001 3 0 = crc7 bs

/-- R110, corner cases: "with bit `deg` of `gen` set, the dividend is below 2^deg after every STEP". That
it also holds for a `gen` with a bit above `deg` rests on this model's choice to cut the dividend to
`deg`+1 bits (log entry 26). -/
def Obligations.DividendStaysBelowTheCheckBit : Prop :=
  ∀ (gen deg : Nat) (bits : List Bool), gen.testBit deg = true → crcRun gen deg 0 bits < 2 ^ deg

/-- R8, R110, R111: CRC is the remainder of the message, times x^flush, divided by the generator over
GF(2). -/
def Obligations.CrcIsThePolynomialRemainder : Prop :=
  ∀ (bs : Bytes) (gen deg flush : Nat), gen.testBit deg = true → gen < 2 ^ (deg + 1) →
    ∃ (shifts : List Nat) (r : Nat), r < 2 ^ deg ∧
      (messageNumber bs <<< flush) ^^^ generatorMultiple gen shifts = r ∧
      crc bs gen deg flush = BitVec.ofNat 8 r

/-- R114: an empty input gives 0, for every generator; so the empty final chunk is sent with checksum
byte 00. -/
def Obligations.CrcOfNothingIsZero : Prop :=
  (∀ gen deg flush : Nat, crc [] gen deg flush = 0x00#8) ∧
  ∀ q : Bit, mkdata q [] = [0x7B#8, 0x00#8, zext8 q, 0x00#8, 0x7D#8]

/-- R115: "no single-bit flip is undetected". -/
def Obligations.SingleBitFlipChangesCrc8 : Prop :=
  ∀ (bs : Bytes) (k i : Nat), k < bs.length → i < 8 → crc8 (flipBit bs k i) ≠ crc8 bs

/-- R116 (b), (c), (f): linearity, leading zeros, the byte-wise form. -/
def Obligations.Crc8IsLinearAndBytewise : Prop :=
  (∀ a b : Bytes, a.length = b.length → crc8 (xorBytes a b) = crc8 a ^^^ crc8 b) ∧
  (∀ a : Bytes, crc8 (0x00#8 :: a) = crc8 a) ∧
  (∀ (m : Bytes) (b : Byte), crc8 (m ++ [b]) = crc8 [crc8 m ^^^ b])

/-! ### Framer -/

/-- R130: what ENCODE emits. -/
def Obligations.EncodeStuffsByValue : Prop :=
  ∀ m p : Bytes, frameOf m p =
    [0x7B#8] ++ (m ++ p).flatMap (fun b =>
      if b = 0x7B#8 ∨ b = 0x7D#8 ∨ b = 0x5C#8 then [0x5C#8, b] else [b]) ++ [0x7D#8]

/-- R134: the lengths of frames. -/
def Obligations.FrameLengths : Prop :=
  (∀ m p : Bytes, (frameOf m p).length = 2 + m.length + p.length +
    (m ++ p).countP (fun b => b = 0x7B#8 ∨ b = 0x7D#8 ∨ b = 0x5C#8)) ∧
  (∀ (q : Bit) (c : Bytes), c.length ≤ 8 →
    5 + c.length ≤ (mkdata q c).length ∧ (mkdata q c).length ≤ 6 + 2 * c.length) ∧
  (∀ (q : Bit) (ctrl : Byte), ctrl = 0x10#8 ∨ ctrl = 0x11#8 → (mkctl ctrl (zext8 q)).length = 5) ∧
  (mkdata 0#1 [0x7B#8, 0x7B#8, 0x7B#8, 0x7B#8, 0x7B#8, 0x7B#8, 0x5C#8, 0x5C#8]).length = 22

/-- R83, R132: every frame ENCODE emits is one of the grammar. -/
def Obligations.EncodeFollowsTheWireGrammar : Prop :=
  ∀ m p : Bytes, isWireFrame (frameOf m p) = true

/-- R135: EXTRACT does what the pseudocode does, by index, and nothing else; it is held while a frame
waits in `rxpend`. That the returned value stands in `result` (log entry 10) and that a hold is a refusal
(log entry 5) are this model's choice. -/
def Obligations.ExtractFollowsThePseudocode : Prop :=
  (∀ s : State, s.rxpend = none →
    exec .extract s = .next
      { s with
        rxacc := (extractIndexed s.rxacc).1, rxpend := (extractIndexed s.rxacc).2,
        result := .frame (extractIndexed s.rxacc).2 }) ∧
  (∀ (s : State) (f : Bytes), s.rxpend = some f → exec .extract s = .refused (.held .framePending))

/-- R140: the round trip, also with more bytes behind the frame; the split after three bytes gives the
two parts back. -/
def Obligations.EncodeThenExtractRoundTrip : Prop :=
  ∀ (s : State) (m p rest : Bytes), s.rxpend = none → s.rxacc = frameOf m p ++ rest →
    ∃ t, exec .extract s = .next t ∧ t.rxpend = some (m ++ p) ∧ t.rxacc = rest ∧
      (m.length = 3 → (m ++ p).take 3 = m ∧ payloadOf (m ++ p) = p)

/-- R136, R141: a prefix without a START byte is discarded, an ESC in it included. -/
def Obligations.JunkBeforeStartIsDiscarded : Prop :=
  ∀ junk acc : Bytes, (∀ b ∈ junk, b ≠ 0x7B#8) →
    extractFrom (junk ++ acc) = extractFrom acc ∧ extractFrom junk = ([], none)

/-- R36 (d), R137: after a `none`, `rxacc` is empty or begins with a START, and from the surviving START
onward nothing was removed; a buffer that begins with START and has no later unescaped START is
preserved unchanged. -/
def Obligations.IncompleteFrameIsKept : Prop :=
  ∀ s t : State, exec .extract s = .next t → t.rxpend = none →
    t.rxacc <:+ s.rxacc ∧ (t.rxacc = [] ∨ t.rxacc.head? = some 0x7B#8) ∧
    (s.rxacc.head? = some 0x7B#8 → restarts false (s.rxacc.drop 1) = false → t.rxacc = s.rxacc)

/-- R138: (a) a second EXTRACT changes nothing, (b) what EXTRACT removed no later byte could have made part
of a frame, (c) the frames extracted do not depend on where the stream was cut. -/
def Obligations.ExtractionIgnoresBatchBoundaries : Prop :=
  (∀ s t : State, exec .extract s = .next t → t.rxpend = none → exec .extract t = .next t) ∧
  (∀ acc kept more : Bytes, extractFrom acc = (kept, none) →
    extractFrom (acc ++ more) = extractFrom (kept ++ more)) ∧
  (∀ (acc kept more k : Bytes) (fs gs : List Bytes),
    ExtractAll acc fs kept → ExtractAll (kept ++ more) gs k → ExtractAll (acc ++ more) (fs ++ gs) k)

/-! ### Chunker -/

/-- R150: the number, the lengths and the content of the chunks. -/
def Obligations.ChunksCutThePayload : Prop :=
  ∀ p : Bytes, (chunksOf p).flatten = p ∧ (chunksOf p).length = p.length / 8 + 1 ∧
    (∀ i < p.length / 8, ∃ c, (chunksOf p)[i]? = some c ∧ c = (p.drop (8 * i)).take 8 ∧ c.length = 8) ∧
    (∃ c, (chunksOf p).getLast? = some c ∧ c.length = p.length % 8)

/-- R152: SEND loads the queue while `busy = 0` and has no step otherwise; a payload over `MAX_PAYLOAD` is
the model fault of R215. That a hold is a refusal (log entry 5) and that a too long payload at a busy
station is a hold and not a fault (log entry 19) are this model's choice. -/
def Obligations.SendLoadsTheQueue : Prop :=
  (∀ (s : State) (p : Bytes), s.sqValid = false → s.arq = .idle →
    (∀ n, s.params.maxPayload = some n → p.length ≤ n) →
    exec (.send p) s = .next { s with sendq := p, sqValid := true }) ∧
  (∀ (s : State) (p : Bytes), s.sqValid = true ∨ s.arq = .awaitingAck →
    exec (.send p) s = .refused (.held .clientBusy)) ∧
  (∀ (s : State) (p : Bytes) (n : Nat), s.sqValid = false → s.arq = .idle →
    s.params.maxPayload = some n → n < p.length → exec (.send p) s = .fault .payloadTooLong)

/-- R153: the chunks TXDATA takes are CHUNK's, in order. -/
def Obligations.LazyChunkingEqualsChunk : Prop :=
  (∀ p : Bytes, lazyChunks (p.length / 8 + 1) p = chunksOf p) ∧
  (∀ s t : State, exec .txdata s = .next t → ∃ c, t.txhold = mkdata s.senderSeq c ∧
    chunksOf s.sendq = c :: (if t.sqValid then chunksOf t.sendq else []) ∧
    (t.sqValid = false → t.sendq = []))

/-! ### ARQ engine, send path -/

/-- R161, R162: TXDATA builds, stores and transmits the frame of the next chunk, and has no step
otherwise. That a hold is a refusal, with its names and their order, is this model's choice (log
entry 5). -/
def Obligations.TxdataSendsTheNextChunk : Prop :=
  (∀ s : State, s.sqValid = true → s.arq = .idle → 8 ≤ s.sendq.length →
    exec .txdata s = .next
      { s with
        sendq := s.sendq.drop 8, arq := .awaitingAck,
        txhold := frameOf [0x00#8, zext8 s.senderSeq, crc8 (s.sendq.take 8)] (s.sendq.take 8),
        txLog := s.txLog ++ [frameOf [0x00#8, zext8 s.senderSeq, crc8 (s.sendq.take 8)] (s.sendq.take 8)] }) ∧
  (∀ s : State, s.sqValid = true → s.arq = .idle → s.sendq.length < 8 →
    exec .txdata s = .next
      { s with
        sendq := [], sqValid := false, arq := .awaitingAck,
        txhold := frameOf [0x00#8, zext8 s.senderSeq, crc8 s.sendq] s.sendq,
        txLog := s.txLog ++ [frameOf [0x00#8, zext8 s.senderSeq, crc8 s.sendq] s.sendq] }) ∧
  (∀ s : State, s.sqValid = false → exec .txdata s = .refused (.held .nothingToSend)) ∧
  (∀ s : State, s.sqValid = true → s.arq = .awaitingAck →
    exec .txdata s = .refused (.held .frameOutstanding))

/-- R163: length, then checksum, then the exact value 0x11. -/
def Obligations.CtlclassDecides : Prop :=
  (∀ c : Bytes, c.length ≠ 3 → ctlClass c = .malformed) ∧
  (∀ c q k : Byte, ctlClass [c, q, k] =
    if k ≠ crc8 [c, q] then .malformed else if c = 0x11#8 then .ack else .nak)

/-- R164, R165: an ACKWAIT succeeds exactly on the well-formed ACK of `senderSeq`; every other content of
the slot retransmits the held frame. What the slot's content, and after a success `txhold`, is
afterwards is left open (R26, R29; log entry 13). That a hold is a refusal, with its names and their
order, is this model's choice (log entry 5). -/
def Obligations.AckwaitActsOnTheSlot : Prop :=
  (∀ s : State, s.arq = .awaitingAck → s.pcfFull = true →
    s.pcf = [0x11#8, zext8 s.senderSeq, crc8 [0x11#8, zext8 s.senderSeq]] →
    ∃ c h, exec .ackwait s = .next
      { s with pcfFull := false, pcf := c, txhold := h, senderSeq := 1#1 - s.senderSeq, arq := .idle }) ∧
  (∀ s : State, s.arq = .awaitingAck → s.pcfFull = true →
    s.pcf ≠ [0x11#8, zext8 s.senderSeq, crc8 [0x11#8, zext8 s.senderSeq]] →
    ∃ c, exec .ackwait s = .next
      { s with pcfFull := false, pcf := c, txLog := s.txLog ++ [s.txhold] }) ∧
  (∀ s : State, s.arq = .idle → exec .ackwait s = .refused (.held .noFrameOutstanding)) ∧
  (∀ s : State, s.arq = .awaitingAck → s.pcfFull = false →
    exec .ackwait s = .refused (.held .slotEmpty))

/-- R166: TIMEOUT "changes no state at all; it only emits a copy of the frame". That a hold is a refusal
is this model's choice (log entry 5). -/
def Obligations.TimeoutRetransmitsTheHeldFrame : Prop :=
  (∀ s : State, s.arq = .awaitingAck → s.params.hasTimeout = true →
    exec .timeout s = .next { s with txLog := s.txLog ++ [s.txhold] }) ∧
  (∀ s : State, s.arq = .idle ∨ s.params.hasTimeout = false →
    ∃ h, exec .timeout s = .refused (.held h))

/-- R160: the transitions of the send path; and the client's call completes, `busy` returns to 0, only
with the acknowledgment of the last chunk (R152) or a RESET. The CB rows that are an ACKWAIT count as
one (log entry 8). -/
def Obligations.ArqMovesOnlyAsTheTransitionTableSays : Prop :=
  ∀ (i : Instr) (s t : State), exec i s = .next t →
    (s.arq = .idle → t.arq = .awaitingAck → i = .txdata ∧ s.sqValid = true) ∧
    (s.arq = .awaitingAck → t.arq = .idle → i = .reset ∨
      (consumesSlot i = true ∧ s.pcfFull = true ∧
        s.pcf = [0x11#8, zext8 s.senderSeq, crc8 [0x11#8, zext8 s.senderSeq]])) ∧
    (i ≠ .reset → (t.senderSeq = 1#1 - s.senderSeq ↔ s.arq = .awaitingAck ∧ t.arq = .idle)) ∧
    (i ≠ .reset → t.senderSeq = s.senderSeq ∨ t.senderSeq = 1#1 - s.senderSeq) ∧
    (busy s = true → busy t = false → i = .reset ∨
      (consumesSlot i = true ∧ s.pcfFull = true ∧ s.sqValid = false ∧
        s.pcf = [0x11#8, zext8 s.senderSeq, crc8 [0x11#8, zext8 s.senderSeq]]))

/-! ### ARQ engine, receive path -/

/-- R180: RXBYTES appends, whatever the bytes; past a finite `ACC_CAP` it is the model fault of R215. -/
def Obligations.RxbytesAppends : Prop :=
  (∀ (s : State) (b : Bytes), (∀ n, s.params.accCap = some n → s.rxacc.length + b.length ≤ n) →
    exec (.rxbytes b) s = .next { s with rxacc := s.rxacc ++ b }) ∧
  (∀ (s : State) (b : Bytes) (n : Nat), s.params.accCap = some n → n < s.rxacc.length + b.length →
    exec (.rxbytes b) s = .fault .accOverflow)

/-- R183, R184: an empty frame is discarded; a control frame goes into an empty slot, whole, and is held
while the slot is full. That a hold is a refusal is this model's choice (log entry 5). -/
def Obligations.RxframeEmptyAndControlFrames : Prop :=
  (∀ s : State, s.rxpend = some [] → exec .rxframe s = .next { s with rxpend := none }) ∧
  (∀ (s : State) (c : Byte) (f : Bytes), s.rxpend = some (c :: f) → c.getLsbD 4 = true → s.pcfFull = false →
    exec .rxframe s = .next { s with rxpend := none, pcf := c :: f, pcfFull := true }) ∧
  (∀ (s : State) (c : Byte) (f : Bytes), s.rxpend = some (c :: f) → c.getLsbD 4 = true → s.pcfFull = true →
    exec .rxframe s = .refused (.held .slotFull))

/-- R185, R187: a data frame that is too short or whose checksum disagrees draws the NAK of
`receiverSeq` and nothing else. -/
def Obligations.RxframeRejectsDamagedData : Prop :=
  ∀ (s : State) (c : Byte) (f : Bytes), s.rxpend = some (c :: f) → c.getLsbD 4 = false →
    (f.length < 2 ∨ ∃ q k p, f = q :: k :: p ∧ crc8 p ≠ k) →
    exec .rxframe s = .next
      { s with
        rxpend := none,
        txLog := s.txLog ++ [if s.receiverSeq = 0#1 then [0x7B#8, 0x10#8, 0x00#8, 0xB0#8, 0x7D#8]
          else [0x7B#8, 0x10#8, 0x01#8, 0x65#8, 0x7D#8]] }

/-- R188: a valid data frame with another sequence byte draws the ACK of the complement of `receiverSeq`
and is not delivered. -/
def Obligations.RxframeReacknowledgesDuplicates : Prop :=
  ∀ (s : State) (c q : Byte) (p : Bytes), s.rxpend = some (c :: q :: crc8 p :: p) → c.getLsbD 4 = false →
    q ≠ zext8 s.receiverSeq →
    exec .rxframe s = .next
      { s with
        rxpend := none,
        txLog := s.txLog ++ [if s.receiverSeq = 1#1 then [0x7B#8, 0x11#8, 0x00#8, 0xBB#8, 0x7D#8]
          else [0x7B#8, 0x11#8, 0x01#8, 0x6E#8, 0x7D#8]] }

/-- R189: a valid data frame with the expected sequence byte is delivered, acknowledged, and the counter
toggled. -/
def Obligations.RxframeAcceptsTheExpectedFrame : Prop :=
  ∀ (s : State) (c : Byte) (p : Bytes), s.rxpend = some (c :: zext8 s.receiverSeq :: crc8 p :: p) →
    c.getLsbD 4 = false →
    exec .rxframe s = .next
      { s with
        rxpend := none, dlvLog := s.dlvLog ++ [p], receiverSeq := 1#1 - s.receiverSeq,
        txLog := s.txLog ++ [if s.receiverSeq = 0#1 then [0x7B#8, 0x11#8, 0x00#8, 0xBB#8, 0x7D#8]
          else [0x7B#8, 0x11#8, 0x01#8, 0x6E#8, 0x7D#8]] }

/-- R82, R90, R186: MKCTL is ENCODE over control, sequence and their checksum; its four results byte for
byte. -/
def Obligations.MkctlBuildsTheFourControlFrames : Prop :=
  (∀ c q : Byte, mkctl c q = frameOf [c, q, crc8 [c, q]] []) ∧
  mkctl 0x10#8 0x00#8 = [0x7B#8, 0x10#8, 0x00#8, 0xB0#8, 0x7D#8] ∧
  mkctl 0x10#8 0x01#8 = [0x7B#8, 0x10#8, 0x01#8, 0x65#8, 0x7D#8] ∧
  mkctl 0x11#8 0x00#8 = [0x7B#8, 0x11#8, 0x00#8, 0xBB#8, 0x7D#8] ∧
  mkctl 0x11#8 0x01#8 = [0x7B#8, 0x11#8, 0x01#8, 0x6E#8, 0x7D#8]

/-- R189, R202: the client sees a payload only when a valid frame with the expected sequence byte was
waiting, and the counter toggles with it and not otherwise. -/
def Obligations.OnlyAcceptedPayloadsAreDelivered : Prop :=
  ∀ (i : Instr) (s t : State), exec i s = .next t →
    (t.dlvLog = s.dlvLog ∧ (i ≠ .reset → t.receiverSeq = s.receiverSeq)) ∨
    (∃ c p, s.rxpend = some (c :: zext8 s.receiverSeq :: crc8 p :: p) ∧ c.getLsbD 4 = false ∧
      t.dlvLog = s.dlvLog ++ [p] ∧ t.receiverSeq = 1#1 - s.receiverSeq ∧ t.rxpend = none)

/-! ### The functions and the rows that are not operations -/

/-- Every function of R100 runs in every state, returns its value and changes nothing else. Where the
value is kept (log entry 10), and what CRC is for a `gen` with a bit above `deg` or with bit `deg` clear
(log entry 26), is this model's choice. -/
def Obligations.FunctionsReturnTheirValue : Prop :=
  ∀ s : State,
    (∀ bs, exec (.crc8 bs) s = .next { s with result := .byte (crc8 bs) }) ∧
    (∀ bs, exec (.crc7 bs) s = .next { s with result := .byte (crc7 bs) }) ∧
    (∀ bs g d f, exec (.crc bs g d f) s = .next { s with result := .byte (crc bs g d f) }) ∧
    (∀ m p, exec (.encodeFrame m p) s = .next { s with result := .bytes (frameOf m p) }) ∧
    (∀ p, exec (.chunk p) s = .next { s with result := .chunks (chunksOf p) }) ∧
    (∀ q c, exec (.mkdata q c) s = .next
      { s with result := .bytes (frameOf [0x00#8, zext8 q, crc8 c] c) }) ∧
    (∀ c q, exec (.mkctl c q) s = .next
      { s with result := .bytes (frameOf [c, q, crc8 [c, q]] []) }) ∧
    (∀ c, exec (.ctlclass c) s = .next { s with result := .ctl (ctlClass c) })

/-- A WB row is the arrival of that byte and a FRAME row the arrival of that frame as MKCTL builds it
(this model's choice, log entries 7 and 9). -/
def Obligations.WireRowsArriveOnLineIn : Prop :=
  ∀ s : State,
    ((∀ n, s.params.accCap = some n → s.rxacc.length + 1 ≤ n) →
      exec .wbStart s = .next { s with rxacc := s.rxacc ++ [0x7B#8] } ∧
      exec .wbEnd s = .next { s with rxacc := s.rxacc ++ [0x7D#8] } ∧
      exec .wbEsc s = .next { s with rxacc := s.rxacc ++ [0x5C#8] } ∧
      ∀ d, exec (.wbLit d) s = .next { s with rxacc := s.rxacc ++ [d] }) ∧
    ((∀ n, s.params.accCap = some n → s.rxacc.length + 5 ≤ n) →
      exec .frameNak0 s = .next { s with rxacc := s.rxacc ++ mkctl 0x10#8 0x00#8 } ∧
      exec .frameNak1 s = .next { s with rxacc := s.rxacc ++ mkctl 0x10#8 0x01#8 } ∧
      exec .frameAck0 s = .next { s with rxacc := s.rxacc ++ mkctl 0x11#8 0x00#8 } ∧
      exec .frameAck1 s = .next { s with rxacc := s.rxacc ++ mkctl 0x11#8 0x01#8 })

/-- A CB row is the operation that makes R86's test on a frame with that control byte (this model's
choice, log entry 8): ACK is an ACKWAIT, a NAK or a reserved pattern retransmits whatever else the
frame holds, and a data control byte is an RXFRAME whose seven other bits are not examined. -/
def Obligations.ControlByteRowsActAsClassified : Prop :=
  (∀ (s : State) (f : Bytes), s.arq = .awaitingAck → s.pcfFull = true → s.pcf = 0x11#8 :: f →
    exec .cbAck s = exec .ackwait s ∧ ∃ t, exec .cbAck s = .next t ∧ t.pcfFull = false) ∧
  (∀ (s : State) (f : Bytes), s.arq = .awaitingAck → s.pcfFull = true → s.pcf = 0x10#8 :: f →
    ∃ c, exec .cbNak s = .next
      { s with pcfFull := false, pcf := c, txLog := s.txLog ++ [s.txhold] }) ∧
  (∀ (s : State) (r : Byte) (f : Bytes), s.arq = .awaitingAck → s.pcfFull = true → s.pcf = r :: f →
    r.getLsbD 4 = true → r ≠ 0x10#8 → r ≠ 0x11#8 →
    ∃ c, exec (.cbCtlrsv r) s = .next
      { s with pcfFull := false, pcf := c, txLog := s.txLog ++ [s.txhold] }) ∧
  (∀ (s : State) (d : Byte) (f : Bytes), s.rxpend = some (d :: f) → d.getLsbD 4 = false →
    exec (.cbData d) s = exec .rxframe { s with rxpend := some (0x00#8 :: f) } ∧
    ∃ t, exec (.cbData d) s = .next t ∧ t.rxpend = none)

/-! ### Whole-machine rules -/

/-- R100: the eight step operations are held exactly when the table's column says they are not enabled,
and with both capacities unbounded every instruction that is not held has a step. That a hold is a
refusal is this model's choice (log entry 5). -/
def Obligations.OperationsAreHeldAsTheTableSays : Prop :=
  ∀ s : State,
    (∀ r, exec .reset s ≠ .refused r) ∧
    (∀ p, (∃ r, exec (.send p) s = .refused r) ↔ ¬(s.sqValid = false ∧ s.arq = .idle)) ∧
    ((∃ r, exec .txdata s = .refused r) ↔ ¬(s.sqValid = true ∧ s.arq = .idle)) ∧
    ((∃ r, exec .ackwait s = .refused r) ↔ ¬(s.arq = .awaitingAck ∧ s.pcfFull = true)) ∧
    ((∃ r, exec .timeout s = .refused r) ↔ ¬(s.params.hasTimeout = true ∧ s.arq = .awaitingAck)) ∧
    (∀ b r, exec (.rxbytes b) s ≠ .refused r) ∧
    ((∃ r, exec .extract s = .refused r) ↔ ¬ s.rxpend = none) ∧
    ((∃ r, exec .rxframe s = .refused r) ↔ ¬ ∃ f, s.rxpend = some f ∧
      ((∃ c g, f = c :: g ∧ c.getLsbD 4 = true) → s.pcfFull = false)) ∧
    (s.params.accCap = none → s.params.maxPayload = none →
      ∀ i : Instr, (∀ r, exec i s ≠ .refused r) → ∃ t, exec i s = .next t)

/-- Every instruction is modelled: what `exec` refuses is held, and held only when `enabled` (the column
of R100, carried over to the other rows by log entries 7 to 9) says it is. That a hold is a refusal is
this model's choice (log entry 5). -/
def Obligations.RefusedMeansHeld : Prop :=
  ∀ (i : Instr) (s : State),
    (enabled i s = false ↔ ∃ h, exec i s = .refused (.held h)) ∧
    (∀ r, exec i s = .refused r → ∃ h, r = .held h)

/-- R202, R215: the model faults, and none with both parameters unbounded. The WB and FRAME rows are
RXBYTES (log entries 7 and 9). That `PayloadTooLong` comes only from a SEND at a station that is not
busy is this model's choice (log entry 19). -/
def Obligations.FaultsAreTheTwoModelFaults : Prop :=
  ∀ (i : Instr) (s : State),
    (exec i s = .fault .accOverflow ↔ ∃ b n, lineInBytes i = some b ∧ s.params.accCap = some n ∧
      n < s.rxacc.length + b.length) ∧
    (exec i s = .fault .payloadTooLong ↔ ∃ p n, i = .send p ∧ s.sqValid = false ∧ s.arq = .idle ∧
      s.params.maxPayload = some n ∧ n < p.length) ∧
    (s.params.accCap = none → s.params.maxPayload = none → ∀ f, exec i s ≠ .fault f)

/-- R38, the columns of what is written: each step operation changes only what the table lets it write,
and the model's own logs (log entry 18) and return value (log entry 10). RESET also leaves `txhold` and
`pcf` unspecified (R230), here free values (log entry 12). That a blank cell means "keeps its value" is
read from the table (log entry 13). That the logs, `result`, `sched` and the parameters stay across
RESET is this model's choice (log entry 17). -/
def Obligations.AccessTableOfWrites : Prop :=
  (∀ s t : State, exec .reset s = .next t → t =
    { s with senderSeq := t.senderSeq, receiverSeq := t.receiverSeq, arq := t.arq, sqValid := t.sqValid,
             sendq := t.sendq, txhold := t.txhold, rxacc := t.rxacc, rxpend := t.rxpend,
             pcfFull := t.pcfFull, pcf := t.pcf, freeCount := t.freeCount }) ∧
  (∀ p, ∀ s t : State, exec (.send p) s = .next t →
    t = { s with sqValid := t.sqValid, sendq := t.sendq }) ∧
  (∀ s t : State, exec .txdata s = .next t →
    t = { s with arq := t.arq, sqValid := t.sqValid, sendq := t.sendq, txhold := t.txhold,
                 txLog := s.txLog ++ [t.txhold] }) ∧
  (∀ s t : State, exec .ackwait s = .next t →
    t = { s with senderSeq := t.senderSeq, arq := t.arq, pcfFull := t.pcfFull, txLog := t.txLog }) ∧
  (∀ s t : State, exec .timeout s = .next t → t = { s with txLog := t.txLog }) ∧
  (∀ b, ∀ s t : State, exec (.rxbytes b) s = .next t → t = { s with rxacc := t.rxacc }) ∧
  (∀ s t : State, exec .extract s = .next t →
    t = { s with rxacc := t.rxacc, rxpend := t.rxpend, result := t.result }) ∧
  (∀ s t : State, exec .rxframe s = .next t →
    t = { s with receiverSeq := t.receiverSeq, rxpend := t.rxpend, pcfFull := t.pcfFull, pcf := t.pcf,
                 txLog := t.txLog, dlvLog := t.dlvLog })

/-- R32: no operation writes a parameter; and none touches the environment's issues (log entry 1). -/
def Obligations.ParametersAndScheduleAreNotWritten : Prop :=
  ∀ (i : Instr) (s t : State), exec i s = .next t → t.params = s.params ∧ t.sched = s.sched

/-- R191, R22: "the receive path never reads `senderSeq` or `arq`", nor anything else of the send path. -/
def Obligations.ReceivePathIgnoresTheSendPath : Prop :=
  ∀ (i : Instr), (∃ b, i = .rxbytes b) ∨ i = .extract ∨ i = .rxframe →
    ∀ (s : State) (q : Bit) (a : Arq) (v : Bool) (w h : Bytes),
      exec i { s with senderSeq := q, arq := a, sqValid := v, sendq := w, txhold := h } =
        mapNext (fun t => { t with senderSeq := q, arq := a, sqValid := v, sendq := w, txhold := h })
          (exec i s)

/-- R167 (d): "the send path never reads `receiverSeq` and never delivers anything to the client", nor does
it read anything else of the receive path but the slot. -/
def Obligations.SendPathIgnoresTheReceivePath : Prop :=
  ∀ (i : Instr), (∃ p, i = .send p) ∨ i = .txdata ∨ i = .ackwait ∨ i = .timeout →
    (∀ (s : State) (q : Bit) (acc : Bytes) (f : Option Bytes) (d : List Bytes),
      exec i { s with receiverSeq := q, rxacc := acc, rxpend := f, dlvLog := d } =
        mapNext (fun t => { t with receiverSeq := q, rxacc := acc, rxpend := f, dlvLog := d }) (exec i s)) ∧
    (∀ s t : State, exec i s = .next t → t.dlvLog = s.dlvLog)

/-- R26, R29, R231: `txhold` while Idle and `pcf` while the slot is empty are read by no operation: two
runs that differ only there differ only there after one step. -/
def Obligations.UnspecifiedRegistersAreNotRead : Prop :=
  (∀ (i : Instr) (s : State) (h : Bytes), s.arq = .idle →
    mapNext (fun t => { t with txhold := [] }) (exec i { s with txhold := h }) =
      mapNext (fun t => { t with txhold := [] }) (exec i s)) ∧
  (∀ (i : Instr) (s : State) (c : Bytes), s.pcfFull = false →
    mapNext (fun t => { t with pcf := [] }) (exec i { s with pcf := c }) =
      mapNext (fun t => { t with pcf := [] }) (exec i s)) ∧
  (∀ (s t : State) (h : Bytes), exec .txdata s = .next t → exec .txdata { s with txhold := h } = .next t) ∧
  (∀ (s t : State) (c : Bytes), s.pcfFull = false → exec .rxframe s = .next t → t.pcfFull = true →
    exec .rxframe { s with pcf := c } = .next t)

/-- R29, R64: a full slot keeps its content until an ACKWAIT (or its CB rows, log entry 8) consumes it, or
a RESET. -/
def Obligations.FullSlotIsNotOverwritten : Prop :=
  ∀ (i : Instr) (s t : State), exec i s = .next t → s.pcfFull = true →
    (t.pcfFull = true ∧ t.pcf = s.pcf) ∨ i = .reset ∨ (consumesSlot i = true ∧ t.pcfFull = false)

/-- R36 (e): a frame is in `rxpend` only because an EXTRACT returned it. -/
def Obligations.PendingFrameComesFromExtract : Prop :=
  ∀ (i : Instr) (s t : State) (f : Bytes), exec i s = .next t → t.rxpend = some f →
    s.rxpend = some f ∨ (i = .extract ∧ s.rxpend = none ∧ (extractIndexed s.rxacc).2 = some f)

/-- R216 (2), R242: a control frame held at a full slot stays, and with it everything behind it, until the
slot is consumed or the station reset; the slot's consumer needs `arq = AwaitingAck`. That the CB rows
of an ACKWAIT count as consumers is this model's choice (log entry 8). -/
def Obligations.FullSlotStallsTheReceivePath : Prop :=
  ∀ (i : Instr) (s t : State) (c : Byte) (f : Bytes), s.rxpend = some (c :: f) → c.getLsbD 4 = true →
    s.pcfFull = true → exec i s = .next t → i ≠ .reset →
    t.rxpend = s.rxpend ∧ t.dlvLog = s.dlvLog ∧ s.rxacc <+: t.rxacc ∧
    (t.pcfFull = true ∨ (consumesSlot i = true ∧ s.arq = .awaitingAck))

/-- R216 (1), R240: with no control frame in the slot, no operation but RESET ends the wait for an
acknowledgment; without a timer nothing is sent again either. The row DATA counts as an RXFRAME (log
entry 8). -/
def Obligations.SilenceKeepsTheSenderWaiting : Prop :=
  ∀ (i : Instr) (s t : State), s.arq = .awaitingAck → s.pcfFull = false → exec i s = .next t →
    i ≠ .reset →
    t.arq = .awaitingAck ∧ t.senderSeq = s.senderSeq ∧ t.sendq = s.sendq ∧ t.txhold = s.txhold ∧
    (s.params.hasTimeout = false → i ≠ .rxframe → (∀ c, i ≠ .cbData c) → t.txLog = s.txLog)

/-- R200, R208: the condition of a frame. A data frame with a wrong checksum reports (c) whatever its
sequence byte. That the conditions are a function beside the machine is this model's choice (log
entry 22). -/
def Obligations.FrameConditionsInOrder : Prop :=
  (∀ s : State, s.rxpend = some [] → conditions .rxframe s = [.damaged]) ∧
  (∀ (s : State) (c : Byte) (f : Bytes), s.rxpend = some (c :: f) → c.getLsbD 4 = true →
    conditions .rxframe s = []) ∧
  (∀ (s : State) (c : Byte) (f : Bytes), s.rxpend = some (c :: f) → c.getLsbD 4 = false → f.length < 2 →
    conditions .rxframe s = [.checksumMismatch]) ∧
  (∀ (s : State) (c q k : Byte) (p : Bytes), s.rxpend = some (c :: q :: k :: p) → c.getLsbD 4 = false →
    conditions .rxframe s = if crc8 p ≠ k then [.checksumMismatch]
      else if q ≠ zext8 s.receiverSeq then [.duplicate] else [])

/-- R200 (a), (b), (e): EXTRACT detects (a) exactly on a `none` that keeps bytes, and (b) exactly when
bytes were discarded: with `none`, when `rxacc` is shorter; with a frame, when the pseudocode finds the
same frame without some bytes at the head. A consumer of the slot (log entry 8) detects (e) exactly on
a malformed frame, and TIMEOUT always (R166). That the conditions are a function beside the machine is
this model's choice (log entry 22). -/
def Obligations.ExtractAndSlotConditions : Prop :=
  (∀ s t : State, exec .extract s = .next t →
    (.incomplete ∈ conditions .extract s ↔ t.rxpend = none ∧ t.rxacc ≠ []) ∧
    (t.rxpend = none → (.damaged ∈ conditions .extract s ↔ t.rxacc ≠ s.rxacc)) ∧
    (∀ f, t.rxpend = some f → (.damaged ∈ conditions .extract s ↔
      ∃ pre rest, pre ≠ [] ∧ s.rxacc = pre ++ rest ∧ extractIndexed rest = (t.rxacc, some f)))) ∧
  (∀ (i : Instr) (s t : State), consumesSlot i = true → exec i s = .next t →
    (.controlLost ∈ conditions i s ↔ ctlClass s.pcf = .malformed)) ∧
  (∀ s t : State, exec .timeout s = .next t → conditions .timeout s = [.controlLost])

/-- R246: because leading zeros are invisible to the checksum, a frame whose payload lost its leading 00
on the line is accepted. -/
def Obligations.LostLeadingZeroIsAccepted : Prop :=
  ∀ (s : State) (p : Bytes), s.rxpend = some (0x00#8 :: zext8 s.receiverSeq :: crc8 (0x00#8 :: p) :: p) →
    ∃ t, exec .rxframe s = .next t ∧ t.dlvLog = s.dlvLog ++ [p] ∧ t.rxpend = none

/-! ### Decoding and the step -/

/-- Words written out from the table: an op index, the wire byte classes, the control byte classes and a
control frame; `send`'s operand is in this model's form (log entry 2). -/
def Obligations.TableWordsDecode : Prop :=
  decode .op [0x03#8] = .ok (.ackwait, []) ∧
  decode .op [0x01#8, 0x01#8, 0x41#8, 0x00#8] = .ok (.send [0x41#8], []) ∧
  decode .op [0x10#8] = .error .opIndexAbove15 ∧
  decode .wb [0b01111011#8] = .ok (.wbStart, []) ∧ decode .wb [0x41#8] = .ok (.wbLit 0x41#8, []) ∧
  decode .cb [0b00010001#8] = .ok (.cbAck, []) ∧ decode .cb [0x13#8] = .ok (.cbCtlrsv 0x13#8, []) ∧
  decode .cb [0x80#8] = .ok (.cbData 0x80#8, []) ∧
  decodeTableWord 40 0b0111101100010001000000010110111001111101 = some .frameAck1

/-- The decoder reads back what the encoder writes, with every operand, and leaves what follows. -/
def Obligations.DecodeInvertsEncode : Prop :=
  ∀ (i : Instr) (rest : Bytes), i.wf = true → decode i.format (encode i ++ rest) = .ok (i, rest)

/-- R80, R86, R90: in the three formats the spec encodes, each word has one meaning: what decodes to a
well-formed instruction of that format is that instruction's encoding. -/
def Obligations.WireFormatsHaveOneMeaning : Prop :=
  ∀ (f : Format) (bs rest : Bytes) (i : Instr), f ≠ .op → decode f bs = .ok (i, rest) →
    i.wf = true ∧ i.format = f ∧ encode i ++ rest = bs

/-- A step runs the decoded instruction, the issue taken from the front of `sched` (log entry 1). -/
def Obligations.StepRunsTheDecodedInstruction : Prop :=
  (∀ (s : State) (e : Issue) (rest : List Issue) (i : Instr), s.sched = e :: rest → decodeIssue e = .ok i →
    step s = exec i { s with sched := rest }) ∧
  (∀ (s : State) (nbits w : Nat) (i : Instr), decodeTableWord nbits w = some i →
    step (s.withFetchWord nbits w) = exec i s)

/-- Every well-formed instruction can be issued: its own issue makes the step run it. -/
def Obligations.IssuedInstructionRuns : Prop :=
  ∀ (s : State) (rest : List Issue) (i : Instr), i.wf = true → s.sched = i.issue :: rest →
    step s = exec i { s with sched := rest }

/-! ### Invariants -/

/-- The machine starts in the invariant. -/
def Obligations.ResetStateMeetsTheInvariant : Prop := StationInv State.reset

/-- R36: every step of any agent, and the machine's own step, keep the invariant. -/
def Obligations.StepsKeepTheInvariant : Prop :=
  (∀ s t : State, StationInv s → CanStep s t → StationInv t) ∧ (∀ s t : State, StationInv s → step s = .next t → StationInv t)

/-- R36 over runs: whatever a station and its environment do after a RESET, the invariant holds, if the
parameters are legal and the log was empty or well-formed. -/
def Obligations.ReachableStatesMeetTheInvariant : Prop :=
  ∀ s₀ s : State, s₀.params.wf = true → (∀ f ∈ s₀.txLog, isWireFrame f = true) →
    Relation.ReflTransGen CanStep (resetStation s₀) s → StationInv s

/-! ### The link -/

/-- R58: the transport keeps order and neither duplicates nor inserts: without replacements the batch it
hands over is a subsequence of the oldest bytes in flight, and what it did not resolve stays. -/
def Obligations.TransportKeepsOrder : Prop :=
  (∀ (fs : List Fate) (bs : Bytes), (∀ v, Fate.replace v ∉ fs) →
    List.Sublist (applyFates fs bs) (bs.take fs.length)) ∧
  (∀ (fs : List Fate) (bs : Bytes), (applyFates fs bs).length ≤ min fs.length bs.length) ∧
  (∀ (n : Nat) (c : List Bytes), (dropBytes n c).flatten = c.flatten.drop n)

/-- R151, R191: over a transport that loses whole frames, in any pattern and in both directions, with any
schedule of both stations and any timer: what a client has received is a prefix of the other
client's chunks, and all of them once that client's call has returned. Each chunk exactly once, in
order. The form of the link and the record of accepted payloads are this model's choice (log
entry 20). -/
def Obligations.LossyLinkDeliversExactlyOnce : Prop :=
  ∀ (pa pb : Config.Params) (l : Link), LossyRun (Link.fresh pa pb) l → ∀ e : Side,
    (l.station e.other).dlvLog <+: requestedChunks l e ∧
    (busy (l.station e) = false → (l.station e.other).dlvLog = requestedChunks l e)

/-- R191, R244 to R246: the guarantee is not absolute. There is a run without a reset in which the
transport replaces a byte and drops none (R245), and one in which it drops a byte and replaces none
(R246), after which the sender's call has returned and the receiver's client has something else. The
form of the link is this model's choice (log entry 20). -/
def Obligations.CorruptionCanBreakDelivery : Prop :=
  (∃ (pa pb : Config.Params) (xs : List LinkEvent) (l : Link), linkRun xs (Link.fresh pa pb) = .next l ∧
    xs.all (fun x => !resets x) = true ∧ (∃ x ∈ xs, ∃ v, Fate.replace v ∈ fatesOf x) ∧
    (∀ x ∈ xs, Fate.drop ∉ fatesOf x) ∧ busy l.a = false ∧ ¬ l.b.dlvLog <+: requestedChunks l .a) ∧
  (∃ (pa pb : Config.Params) (xs : List LinkEvent) (l : Link), linkRun xs (Link.fresh pa pb) = .next l ∧
    xs.all (fun x => !resets x) = true ∧ (∃ x ∈ xs, Fate.drop ∈ fatesOf x) ∧
    (∀ x ∈ xs, ∀ v, Fate.replace v ∉ fatesOf x) ∧ busy l.a = false ∧
    ¬ l.b.dlvLog <+: requestedChunks l .a)
end

