-- ==== Sys2Proof/Laws/Codec.lean ====
section
/-! SUPPORT. Operands read back as written. -/

namespace Sys2Proof

theorem takeSeq_putSeq (bs rest : Bytes) : takeSeq (putSeq bs ++ rest) = .ok (bs, rest) := by
  induction bs with
  | nil => cases rest <;> simp [putSeq, takeSeq]
  | cons b bs ih => simp [putSeq, takeSeq, ih]

theorem withSeq_putSeq (bs rest : Bytes) (k : Bytes → Bytes → Decoded) :
    withSeq (putSeq bs ++ rest) k = k bs rest := by
  simp [withSeq, takeSeq_putSeq]

theorem natOfDigits_digitsOf (k n : Nat) (h : n ≤ k) : natOfDigits (digitsOf k n) = n := by
  induction k generalizing n with
  | zero => simp [digitsOf, natOfDigits]; omega
  | succ k ih =>
    by_cases hn : n = 0
    · simp [digitsOf, hn, natOfDigits]
    · simp only [digitsOf, beq_iff_eq, hn, if_false, natOfDigits, BitVec.toNat_ofNat]
      rw [ih (n / 256) (by omega)]
      omega

theorem withNat_putNat (n : Nat) (rest : Bytes) (k : Nat → Bytes → Decoded) :
    withNat (putNat n ++ rest) k = k n rest := by
  simp [withNat, putNat, withSeq_putSeq, natOfDigits_digitsOf n n (Nat.le_refl n)]

theorem withByte_cons (b : Byte) (rest : Bytes) (k : Byte → Bytes → Decoded) :
    withByte (b :: rest) k = k b rest := rfl

theorem withBit_cons (b : Bit) (rest : Bytes) (k : Bit → Bytes → Decoded) :
    withBit (BitVec.setWidth 8 b :: rest) k = k b rest := by
  have h : b = 0#1 ∨ b = 1#1 := by
    have := b.isLt
    rcases (by omega : b.toNat = 0 ∨ b.toNat = 1) with h | h
    · exact .inl (BitVec.eq_of_toNat_eq h)
    · exact .inr (BitVec.eq_of_toNat_eq h)
  rcases h with rfl | rfl <;> rfl

end Sys2Proof
end

