-- ==== Sys2Proof/Laws/Framer.lean ====
section
/-! SUPPORT. The equations of the framer: how one more byte is stuffed and how one more byte is scanned. -/

namespace Sys2Proof.Machine

theorem needsEscape_iff {b : Byte} :
    needsEscape b = true ↔ b = Config.startByte ∨ b = Config.endByte ∨ b = Config.escByte := by
  simp [needsEscape, or_assoc]

theorem needsEscape_eq_reservedByte (b : Byte) : needsEscape b = reservedByte b := rfl

/-! ### Scanning one byte (R135) -/

@[simp] theorem scanFrame_nil (kept out : Bytes) (esc : Bool) : scanFrame kept out esc [] = (kept, none) := rfl

theorem scanFrame_escaped (kept out rest : Bytes) (b : Byte) :
    scanFrame kept out true (b :: rest) = scanFrame kept (out ++ [b]) false rest := by
  simp [scanFrame]

theorem scanFrame_esc (kept out rest : Bytes) :
    scanFrame kept out false (Config.escByte :: rest) = scanFrame kept out true rest := by
  simp [scanFrame]

theorem scanFrame_end (kept out rest : Bytes) :
    scanFrame kept out false (Config.endByte :: rest) = (rest, some out) := by
  simp [scanFrame, Config.endByte, Config.escByte]

theorem scanFrame_start (kept out rest : Bytes) :
    scanFrame kept out false (Config.startByte :: rest)
      = scanFrame (Config.startByte :: rest) [] false rest := by
  simp [scanFrame, Config.startByte, Config.endByte, Config.escByte]

theorem scanFrame_lit (kept out rest : Bytes) {b : Byte} (h : needsEscape b = false) :
    scanFrame kept out false (b :: rest) = scanFrame kept (out ++ [b]) false rest := by
  simp only [needsEscape, Bool.or_eq_false_iff] at h
  simp [scanFrame, h]

/-- A stuffed byte is read back as itself (R132). -/
theorem scanFrame_stuffByte (kept out rest : Bytes) (b : Byte) :
    scanFrame kept out false (stuffByte b ++ rest) = scanFrame kept (out ++ [b]) false rest := by
  unfold stuffByte
  cases h : needsEscape b with
  | true => simp [scanFrame_esc, scanFrame_escaped]
  | false => simp [scanFrame_lit _ _ _ h]

end Sys2Proof.Machine
end

