-- ==== Sys2Proof/Laws/State.lean ====
section
/-! SUPPORT. One lemma per field per update of the state, each true by `rfl`: later proofs rewrite with
these and unfold no record update. -/

namespace Sys2Proof.Machine

variable (s : State) (f p : Bytes) (v : Value)

/-! ### `transmit` -/

@[simp] theorem transmit_senderSeq : (transmit f s).senderSeq = s.senderSeq := rfl
@[simp] theorem transmit_receiverSeq : (transmit f s).receiverSeq = s.receiverSeq := rfl
@[simp] theorem transmit_arq : (transmit f s).arq = s.arq := rfl
@[simp] theorem transmit_sqValid : (transmit f s).sqValid = s.sqValid := rfl
@[simp] theorem transmit_sendq : (transmit f s).sendq = s.sendq := rfl
@[simp] theorem transmit_txhold : (transmit f s).txhold = s.txhold := rfl
@[simp] theorem transmit_rxacc : (transmit f s).rxacc = s.rxacc := rfl
@[simp] theorem transmit_rxpend : (transmit f s).rxpend = s.rxpend := rfl
@[simp] theorem transmit_pcfFull : (transmit f s).pcfFull = s.pcfFull := rfl
@[simp] theorem transmit_pcf : (transmit f s).pcf = s.pcf := rfl
@[simp] theorem transmit_params : (transmit f s).params = s.params := rfl
@[simp] theorem transmit_txLog : (transmit f s).txLog = s.txLog ++ [f] := rfl
@[simp] theorem transmit_dlvLog : (transmit f s).dlvLog = s.dlvLog := rfl
@[simp] theorem transmit_result : (transmit f s).result = s.result := rfl
@[simp] theorem transmit_sched : (transmit f s).sched = s.sched := rfl
@[simp] theorem transmit_freeCount : (transmit f s).freeCount = s.freeCount := rfl

/-! ### `deliver` -/

@[simp] theorem deliver_senderSeq : (deliver p s).senderSeq = s.senderSeq := rfl
@[simp] theorem deliver_receiverSeq : (deliver p s).receiverSeq = s.receiverSeq := rfl
@[simp] theorem deliver_arq : (deliver p s).arq = s.arq := rfl
@[simp] theorem deliver_sqValid : (deliver p s).sqValid = s.sqValid := rfl
@[simp] theorem deliver_sendq : (deliver p s).sendq = s.sendq := rfl
@[simp] theorem deliver_txhold : (deliver p s).txhold = s.txhold := rfl
@[simp] theorem deliver_rxacc : (deliver p s).rxacc = s.rxacc := rfl
@[simp] theorem deliver_rxpend : (deliver p s).rxpend = s.rxpend := rfl
@[simp] theorem deliver_pcfFull : (deliver p s).pcfFull = s.pcfFull := rfl
@[simp] theorem deliver_pcf : (deliver p s).pcf = s.pcf := rfl
@[simp] theorem deliver_params : (deliver p s).params = s.params := rfl
@[simp] theorem deliver_txLog : (deliver p s).txLog = s.txLog := rfl
@[simp] theorem deliver_dlvLog : (deliver p s).dlvLog = s.dlvLog ++ [p] := rfl
@[simp] theorem deliver_result : (deliver p s).result = s.result := rfl
@[simp] theorem deliver_sched : (deliver p s).sched = s.sched := rfl
@[simp] theorem deliver_freeCount : (deliver p s).freeCount = s.freeCount := rfl

/-! ### `returnValue` -/

@[simp] theorem returnValue_senderSeq : (returnValue v s).senderSeq = s.senderSeq := rfl
@[simp] theorem returnValue_receiverSeq : (returnValue v s).receiverSeq = s.receiverSeq := rfl
@[simp] theorem returnValue_arq : (returnValue v s).arq = s.arq := rfl
@[simp] theorem returnValue_sqValid : (returnValue v s).sqValid = s.sqValid := rfl
@[simp] theorem returnValue_sendq : (returnValue v s).sendq = s.sendq := rfl
@[simp] theorem returnValue_txhold : (returnValue v s).txhold = s.txhold := rfl
@[simp] theorem returnValue_rxacc : (returnValue v s).rxacc = s.rxacc := rfl
@[simp] theorem returnValue_rxpend : (returnValue v s).rxpend = s.rxpend := rfl
@[simp] theorem returnValue_pcfFull : (returnValue v s).pcfFull = s.pcfFull := rfl
@[simp] theorem returnValue_pcf : (returnValue v s).pcf = s.pcf := rfl
@[simp] theorem returnValue_params : (returnValue v s).params = s.params := rfl
@[simp] theorem returnValue_txLog : (returnValue v s).txLog = s.txLog := rfl
@[simp] theorem returnValue_dlvLog : (returnValue v s).dlvLog = s.dlvLog := rfl
@[simp] theorem returnValue_result : (returnValue v s).result = v := rfl
@[simp] theorem returnValue_sched : (returnValue v s).sched = s.sched := rfl
@[simp] theorem returnValue_freeCount : (returnValue v s).freeCount = s.freeCount := rfl

/-! ### `clearPend` -/

@[simp] theorem clearPend_senderSeq : (clearPend s).senderSeq = s.senderSeq := rfl
@[simp] theorem clearPend_receiverSeq : (clearPend s).receiverSeq = s.receiverSeq := rfl
@[simp] theorem clearPend_arq : (clearPend s).arq = s.arq := rfl
@[simp] theorem clearPend_sqValid : (clearPend s).sqValid = s.sqValid := rfl
@[simp] theorem clearPend_sendq : (clearPend s).sendq = s.sendq := rfl
@[simp] theorem clearPend_txhold : (clearPend s).txhold = s.txhold := rfl
@[simp] theorem clearPend_rxacc : (clearPend s).rxacc = s.rxacc := rfl
@[simp] theorem clearPend_rxpend : (clearPend s).rxpend = none := rfl
@[simp] theorem clearPend_pcfFull : (clearPend s).pcfFull = s.pcfFull := rfl
@[simp] theorem clearPend_pcf : (clearPend s).pcf = s.pcf := rfl
@[simp] theorem clearPend_params : (clearPend s).params = s.params := rfl
@[simp] theorem clearPend_txLog : (clearPend s).txLog = s.txLog := rfl
@[simp] theorem clearPend_dlvLog : (clearPend s).dlvLog = s.dlvLog := rfl
@[simp] theorem clearPend_result : (clearPend s).result = s.result := rfl
@[simp] theorem clearPend_sched : (clearPend s).sched = s.sched := rfl
@[simp] theorem clearPend_freeCount : (clearPend s).freeCount = s.freeCount := rfl

/-! ### `fillSlot` -/

@[simp] theorem fillSlot_senderSeq : (fillSlot f s).senderSeq = s.senderSeq := rfl
@[simp] theorem fillSlot_receiverSeq : (fillSlot f s).receiverSeq = s.receiverSeq := rfl
@[simp] theorem fillSlot_arq : (fillSlot f s).arq = s.arq := rfl
@[simp] theorem fillSlot_sqValid : (fillSlot f s).sqValid = s.sqValid := rfl
@[simp] theorem fillSlot_sendq : (fillSlot f s).sendq = s.sendq := rfl
@[simp] theorem fillSlot_txhold : (fillSlot f s).txhold = s.txhold := rfl
@[simp] theorem fillSlot_rxacc : (fillSlot f s).rxacc = s.rxacc := rfl
@[simp] theorem fillSlot_rxpend : (fillSlot f s).rxpend = s.rxpend := rfl
@[simp] theorem fillSlot_pcfFull : (fillSlot f s).pcfFull = true := rfl
@[simp] theorem fillSlot_pcf : (fillSlot f s).pcf = f := rfl
@[simp] theorem fillSlot_params : (fillSlot f s).params = s.params := rfl
@[simp] theorem fillSlot_txLog : (fillSlot f s).txLog = s.txLog := rfl
@[simp] theorem fillSlot_dlvLog : (fillSlot f s).dlvLog = s.dlvLog := rfl
@[simp] theorem fillSlot_result : (fillSlot f s).result = s.result := rfl
@[simp] theorem fillSlot_sched : (fillSlot f s).sched = s.sched := rfl
@[simp] theorem fillSlot_freeCount : (fillSlot f s).freeCount = s.freeCount := rfl

/-! ### `emptySlot` -/

@[simp] theorem emptySlot_senderSeq : (emptySlot s).senderSeq = s.senderSeq := rfl
@[simp] theorem emptySlot_receiverSeq : (emptySlot s).receiverSeq = s.receiverSeq := rfl
@[simp] theorem emptySlot_arq : (emptySlot s).arq = s.arq := rfl
@[simp] theorem emptySlot_sqValid : (emptySlot s).sqValid = s.sqValid := rfl
@[simp] theorem emptySlot_sendq : (emptySlot s).sendq = s.sendq := rfl
@[simp] theorem emptySlot_txhold : (emptySlot s).txhold = s.txhold := rfl
@[simp] theorem emptySlot_rxacc : (emptySlot s).rxacc = s.rxacc := rfl
@[simp] theorem emptySlot_rxpend : (emptySlot s).rxpend = s.rxpend := rfl
@[simp] theorem emptySlot_pcfFull : (emptySlot s).pcfFull = false := rfl
@[simp] theorem emptySlot_pcf : (emptySlot s).pcf = s.pcf := rfl
@[simp] theorem emptySlot_params : (emptySlot s).params = s.params := rfl
@[simp] theorem emptySlot_txLog : (emptySlot s).txLog = s.txLog := rfl
@[simp] theorem emptySlot_dlvLog : (emptySlot s).dlvLog = s.dlvLog := rfl
@[simp] theorem emptySlot_result : (emptySlot s).result = s.result := rfl
@[simp] theorem emptySlot_sched : (emptySlot s).sched = s.sched := rfl
@[simp] theorem emptySlot_freeCount : (emptySlot s).freeCount = s.freeCount := rfl

/-! ### `toggleReceiver` -/

@[simp] theorem toggleReceiver_senderSeq : (toggleReceiver s).senderSeq = s.senderSeq := rfl
@[simp] theorem toggleReceiver_receiverSeq : (toggleReceiver s).receiverSeq = complement s.receiverSeq := rfl
@[simp] theorem toggleReceiver_arq : (toggleReceiver s).arq = s.arq := rfl
@[simp] theorem toggleReceiver_sqValid : (toggleReceiver s).sqValid = s.sqValid := rfl
@[simp] theorem toggleReceiver_sendq : (toggleReceiver s).sendq = s.sendq := rfl
@[simp] theorem toggleReceiver_txhold : (toggleReceiver s).txhold = s.txhold := rfl
@[simp] theorem toggleReceiver_rxacc : (toggleReceiver s).rxacc = s.rxacc := rfl
@[simp] theorem toggleReceiver_rxpend : (toggleReceiver s).rxpend = s.rxpend := rfl
@[simp] theorem toggleReceiver_pcfFull : (toggleReceiver s).pcfFull = s.pcfFull := rfl
@[simp] theorem toggleReceiver_pcf : (toggleReceiver s).pcf = s.pcf := rfl
@[simp] theorem toggleReceiver_params : (toggleReceiver s).params = s.params := rfl
@[simp] theorem toggleReceiver_txLog : (toggleReceiver s).txLog = s.txLog := rfl
@[simp] theorem toggleReceiver_dlvLog : (toggleReceiver s).dlvLog = s.dlvLog := rfl
@[simp] theorem toggleReceiver_result : (toggleReceiver s).result = s.result := rfl
@[simp] theorem toggleReceiver_sched : (toggleReceiver s).sched = s.sched := rfl
@[simp] theorem toggleReceiver_freeCount : (toggleReceiver s).freeCount = s.freeCount := rfl

/-! ### `acknowledged` -/

@[simp] theorem acknowledged_senderSeq : (acknowledged s).senderSeq = complement s.senderSeq := rfl
@[simp] theorem acknowledged_receiverSeq : (acknowledged s).receiverSeq = s.receiverSeq := rfl
@[simp] theorem acknowledged_arq : (acknowledged s).arq = .idle := rfl
@[simp] theorem acknowledged_sqValid : (acknowledged s).sqValid = s.sqValid := rfl
@[simp] theorem acknowledged_sendq : (acknowledged s).sendq = s.sendq := rfl
@[simp] theorem acknowledged_txhold : (acknowledged s).txhold = s.txhold := rfl
@[simp] theorem acknowledged_rxacc : (acknowledged s).rxacc = s.rxacc := rfl
@[simp] theorem acknowledged_rxpend : (acknowledged s).rxpend = s.rxpend := rfl
@[simp] theorem acknowledged_pcfFull : (acknowledged s).pcfFull = s.pcfFull := rfl
@[simp] theorem acknowledged_pcf : (acknowledged s).pcf = s.pcf := rfl
@[simp] theorem acknowledged_params : (acknowledged s).params = s.params := rfl
@[simp] theorem acknowledged_txLog : (acknowledged s).txLog = s.txLog := rfl
@[simp] theorem acknowledged_dlvLog : (acknowledged s).dlvLog = s.dlvLog := rfl
@[simp] theorem acknowledged_result : (acknowledged s).result = s.result := rfl
@[simp] theorem acknowledged_sched : (acknowledged s).sched = s.sched := rfl
@[simp] theorem acknowledged_freeCount : (acknowledged s).freeCount = s.freeCount := rfl

/-! ### `resetStation` -/

@[simp] theorem resetStation_senderSeq : (resetStation s).senderSeq = 0#1 := rfl
@[simp] theorem resetStation_receiverSeq : (resetStation s).receiverSeq = 0#1 := rfl
@[simp] theorem resetStation_arq : (resetStation s).arq = .idle := rfl
@[simp] theorem resetStation_sqValid : (resetStation s).sqValid = false := rfl
@[simp] theorem resetStation_sendq : (resetStation s).sendq = [] := rfl
@[simp] theorem resetStation_txhold : (resetStation s).txhold = Config.freeBytes s.freeCount := rfl
@[simp] theorem resetStation_rxacc : (resetStation s).rxacc = [] := rfl
@[simp] theorem resetStation_rxpend : (resetStation s).rxpend = none := rfl
@[simp] theorem resetStation_pcfFull : (resetStation s).pcfFull = false := rfl
@[simp] theorem resetStation_pcf : (resetStation s).pcf = Config.freeBytes (s.freeCount + 1) := rfl
@[simp] theorem resetStation_params : (resetStation s).params = s.params := rfl
@[simp] theorem resetStation_txLog : (resetStation s).txLog = s.txLog := rfl
@[simp] theorem resetStation_dlvLog : (resetStation s).dlvLog = s.dlvLog := rfl
@[simp] theorem resetStation_result : (resetStation s).result = s.result := rfl
@[simp] theorem resetStation_sched : (resetStation s).sched = s.sched := rfl
@[simp] theorem resetStation_freeCount : (resetStation s).freeCount = s.freeCount + 2 := rfl

end Sys2Proof.Machine
end

