-- ==== Sys2Proof/Laws/Ops.lean ====
section
/-! SUPPORT. What each shared operation and each meaning can do, said once: when it gives a next state and
which one, when it stops. -/

namespace Sys2Proof.Machine

variable {s t : State}

/-! ### `require` -/

theorem require_true {c : Bool} {h : Hold} {k : Result} (hc : c = true) : require c h k = k := by
  simp [require, hc]

theorem require_false {c : Bool} {h : Hold} {k : Result} (hc : c = false) :
    require c h k = .refused (.held h) := by
  simp [require, hc]

theorem require_next_iff {c : Bool} {h : Hold} {k : Result} :
    require c h k = .next t ↔ c = true ∧ k = .next t := by
  cases c <;> simp [require]

theorem require_fault_iff {c : Bool} {h : Hold} {k : Result} {f : Fault} :
    require c h k = .fault f ↔ c = true ∧ k = .fault f := by
  cases c <;> simp [require]

theorem require_refused_iff {c : Bool} {h : Hold} {k : Result} {r : Refusal} :
    require c h k = .refused r ↔ (c = false ∧ r = .held h) ∨ (c = true ∧ k = .refused r) := by
  cases c <;> simp [require, eq_comm]

/-! ### The accumulator -/

/-- A batch fits the accumulator (R14, R215). -/
def accFits (s : State) (batch : Bytes) : Prop :=
  ∀ cap, s.params.accCap = some cap → s.rxacc.length + batch.length ≤ cap

theorem appendRx_next {batch : Bytes} (h : accFits s batch) :
    appendRx batch s = .next { s with rxacc := s.rxacc ++ batch } := by
  unfold appendRx
  cases hc : s.params.accCap with
  | none => rfl
  | some cap => simp [h cap hc]

theorem appendRx_fault {batch : Bytes} (h : ¬ accFits s batch) : appendRx batch s = .fault .accOverflow := by
  unfold appendRx
  cases hc : s.params.accCap with
  | none => exact absurd (fun cap hcap => by simp [hc] at hcap) h
  | some cap =>
    have : ¬ s.rxacc.length + batch.length ≤ cap := fun hle =>
      h fun cap' hcap' => by rw [hc] at hcap'; cases hcap'; exact hle
    simp [this]

theorem appendRx_next_iff {batch : Bytes} :
    appendRx batch s = .next t ↔ accFits s batch ∧ t = { s with rxacc := s.rxacc ++ batch } := by
  by_cases h : accFits s batch
  · simp [appendRx_next h, h, @eq_comm _ t]
  · simp [appendRx_fault h, h]

/-! ### Flags -/

theorem awaiting_iff : awaiting s = true ↔ s.arq = .awaitingAck := by simp [awaiting]

theorem awaiting_eq_false_iff : awaiting s = false ↔ s.arq = .idle := by
  cases h : s.arq <;> simp [awaiting, h]

theorem busy_eq_false_iff : busy s = false ↔ s.sqValid = false ∧ s.arq = .idle := by
  simp [busy, awaiting_eq_false_iff]

/-! ### The meanings: next states -/

theorem execReset_next_iff : execReset s = .next t ↔ t = resetStation s := by
  simp [execReset, @eq_comm _ t]

theorem execSend_next_iff {p : Bytes} :
    execSend p s = .next t ↔ busy s = false ∧ payloadFits s.params p = true ∧
      t = { s with sendq := p, sqValid := true } := by
  simp only [execSend, require_next_iff, Bool.not_eq_true']
  by_cases h : payloadFits s.params p = true <;> simp [h, @eq_comm _ t]

theorem execTxdata_next_iff :
    execTxdata s = .next t ↔ s.sqValid = true ∧ awaiting s = false ∧
      t = transmit (mkdata s.senderSeq (takeChunk s.sendq).1)
        { s with sendq := (takeChunk s.sendq).2.1, sqValid := (takeChunk s.sendq).2.2,
                 txhold := mkdata s.senderSeq (takeChunk s.sendq).1, arq := .awaitingAck } := by
  simp [execTxdata, require_next_iff, @eq_comm _ t]

theorem ackwaitWhen_next_iff {ok : Option Byte → Bool} :
    ackwaitWhen ok s = .next t ↔ awaiting s = true ∧ s.pcfFull = true ∧ ok (slotControlByte s) = true ∧
      t = consumeSlot s := by
  simp [ackwaitWhen, require_next_iff, @eq_comm _ t]

theorem execTimeout_next_iff :
    execTimeout s = .next t ↔ awaiting s = true ∧ s.params.hasTimeout = true ∧
      t = transmit s.txhold s := by
  simp [execTimeout, require_next_iff, @eq_comm _ t]

theorem execExtract_next_iff :
    execExtract s = .next t ↔ s.rxpend = none ∧
      t = returnValue (.frame (extractFrom s.rxacc).2)
        { s with rxacc := (extractFrom s.rxacc).1, rxpend := (extractFrom s.rxacc).2 } := by
  simp [execExtract, require_next_iff, @eq_comm _ t]

theorem execRxframe_next_iff :
    execRxframe s = .next t ↔ ∃ f, s.rxpend = some f ∧ processFrame f s = .next t := by
  cases h : s.rxpend <;> simp [execRxframe, h]

theorem execCbData_next_iff {c : Byte} :
    execCbData c s = .next t ↔ ∃ f, s.rxpend = some f ∧ isControl c = false ∧
      controlByte f = some c ∧ processFrame f s = .next t := by
  cases h : s.rxpend <;> simp [execCbData, h, require_next_iff, and_assoc]

/-- The two outcomes of consuming the slot (R164, R165). -/
theorem consumeSlot_cases (s : State) :
    (acknowledges s.pcf s.senderSeq = true ∧ consumeSlot s = acknowledged (emptySlot s)) ∨
    (acknowledges s.pcf s.senderSeq = false ∧ consumeSlot s = transmit s.txhold (emptySlot s)) := by
  unfold consumeSlot
  cases acknowledges s.pcf s.senderSeq <;> simp

/-- The six cases of a frame taken from `rxpend` (R182 to R189). -/
theorem processFrame_next_iff {f : Bytes} :
    processFrame f s = .next t ↔
      (rxCase s.receiverSeq f = .empty ∧ t = clearPend s) ∨
      (rxCase s.receiverSeq f = .control ∧ s.pcfFull = false ∧ t = fillSlot f (clearPend s)) ∨
      ((rxCase s.receiverSeq f = .runt ∨ rxCase s.receiverSeq f = .mismatch) ∧
        t = transmit (mkctl Config.ctrlNak (zext8 s.receiverSeq)) (clearPend s)) ∨
      (rxCase s.receiverSeq f = .duplicate ∧
        t = transmit (mkctl Config.ctrlAck (zext8 (complement s.receiverSeq))) (clearPend s)) ∨
      (rxCase s.receiverSeq f = .accept ∧
        t = toggleReceiver (transmit (mkctl Config.ctrlAck (zext8 s.receiverSeq))
          (deliver (payloadOf f) (clearPend s)))) := by
  cases h : rxCase s.receiverSeq f <;> simp [processFrame, h, require_next_iff, @eq_comm _ t]

/-! ### The step -/

theorem step_next_iff :
    step s = .next t ↔ ∃ e rest i, s.sched = e :: rest ∧ decodeIssue e = .ok i ∧
      exec i { s with sched := rest } = .next t := by
  unfold step
  cases s.sched with
  | nil => simp
  | cons e rest => cases h : decodeIssue e <;> simp [h]

end Sys2Proof.Machine
end

