-- ==== Sys2Proof/Laws/PerInstr.lean ====
section
/-! SUPPORT. Facts per instruction, one lemma per constructor. Family `TableRow`: a well-formed
instruction's first bits are matched by its own row of the opcode table, tried in the table's order
(R86, R100, R101). -/

namespace Sys2Proof.Laws.TableRow

/-- The first row that matches the instruction's bits is the instruction's row. -/
def Statement (i : Instr) : Prop :=
  i.wf = true → (firstRow i.format i.patternWord).map Row.mnemonic = some i.mnemonic

theorem wbLit_word : ∀ d : Fin 256, reservedByte (BitVec.ofFin d) = false →
    (firstRow .wb d.val).map Row.mnemonic = some "LIT" := by decide +kernel

theorem cbCtlrsv_word : ∀ c : Fin 256, typeBit (BitVec.ofFin c) = true → (BitVec.ofFin c : Byte) ≠ Config.ctrlAck →
    (BitVec.ofFin c : Byte) ≠ Config.ctrlNak → (firstRow .cb c.val).map Row.mnemonic = some "CTLRSV" := by decide +kernel

theorem cbData_word : ∀ c : Fin 256, typeBit (BitVec.ofFin c) = false →
    (firstRow .cb c.val).map Row.mnemonic = some "DATA" := by decide +kernel

theorem reset : Statement .reset := fun _ => rfl
theorem send (p : Bytes) : Statement (.send p) :=
  fun _ => (rfl : (firstRow .op 1).map Row.mnemonic = some "SEND")
theorem txdata : Statement .txdata := fun _ => rfl
theorem ackwait : Statement .ackwait := fun _ => rfl
theorem timeout : Statement .timeout := fun _ => rfl
theorem rxbytes (p : Bytes) : Statement (.rxbytes p) :=
  fun _ => (rfl : (firstRow .op 5).map Row.mnemonic = some "RXBYTES")
theorem extract : Statement .extract := fun _ => rfl
theorem rxframe : Statement .rxframe := fun _ => rfl
theorem crc8 (p : Bytes) : Statement (.crc8 p) :=
  fun _ => (rfl : (firstRow .op 8).map Row.mnemonic = some "CRC8")
theorem crc7 (p : Bytes) : Statement (.crc7 p) :=
  fun _ => (rfl : (firstRow .op 9).map Row.mnemonic = some "CRC7")
theorem crc (p : Bytes) (g : Nat) (d : Nat) (f : Nat) : Statement (.crc p g d f) :=
  fun _ => (rfl : (firstRow .op 10).map Row.mnemonic = some "CRC")
theorem encodeFrame (m : Bytes) (p : Bytes) : Statement (.encodeFrame m p) :=
  fun _ => (rfl : (firstRow .op 11).map Row.mnemonic = some "ENCODE")
theorem chunk (p : Bytes) : Statement (.chunk p) :=
  fun _ => (rfl : (firstRow .op 12).map Row.mnemonic = some "CHUNK")
theorem mkdata (q : Bit) (c : Bytes) : Statement (.mkdata q c) :=
  fun _ => (rfl : (firstRow .op 13).map Row.mnemonic = some "MKDATA")
theorem mkctl (c : Byte) (q : Byte) : Statement (.mkctl c q) :=
  fun _ => (rfl : (firstRow .op 14).map Row.mnemonic = some "MKCTL")
theorem ctlclass (c : Bytes) : Statement (.ctlclass c) :=
  fun _ => (rfl : (firstRow .op 15).map Row.mnemonic = some "CTLCLASS")
theorem wbStart : Statement .wbStart := fun _ => rfl
theorem wbEnd : Statement .wbEnd := fun _ => rfl
theorem wbEsc : Statement .wbEsc := fun _ => rfl
theorem wbLit (d : Byte) : Statement (.wbLit d) := fun h => wbLit_word d.toFin (by simpa [Instr.wf] using h)
theorem cbAck : Statement .cbAck := fun _ => rfl
theorem cbNak : Statement .cbNak := fun _ => rfl
theorem cbCtlrsv (c : Byte) : Statement (.cbCtlrsv c) := fun h => by
    simp only [Instr.wf, Bool.and_eq_true, bne_iff_ne] at h
    exact cbCtlrsv_word c.toFin h.1.1 h.1.2 h.2
theorem cbData (c : Byte) : Statement (.cbData c) := fun h => cbData_word c.toFin (by simpa [Instr.wf] using h)
theorem frameNak0 : Statement .frameNak0 := fun _ => rfl
theorem frameNak1 : Statement .frameNak1 := fun _ => rfl
theorem frameAck0 : Statement .frameAck0 := fun _ => rfl
theorem frameAck1 : Statement .frameAck1 := fun _ => rfl

end Sys2Proof.Laws.TableRow
end

