-- ==== Sys2Proof/Tests/Slice0.lean ====
section
/-! SUPPORT. The model's own tests. Expected values are the spec's: the words of opcode_table.json and
30_encoding.md, and the vectors of 95_test_vectors.md (section numbers in the comments). The last
part shows, for every statement with hypotheses, a concrete state that meets them. -/

namespace Sys2Proof.Tests

-- The kernel evaluations below wait for one another: one at a time they need one thread.
set_option Elab.async false

open Sys2Proof.Machine Sys2Proof.Safety

/-! ### Decoding: a word of every row -/

theorem test_decode_reset : decode .op [0b0000#8] = .ok (.reset, []) := rfl
theorem test_decode_send : decode .op [0b0001#8, 0x01#8, 0x41#8, 0x01#8, 0x42#8, 0x00#8] = .ok (.send [0x41#8, 0x42#8], []) := rfl
theorem test_decode_txdata : decode .op [0b0010#8] = .ok (.txdata, []) := rfl
theorem test_decode_ackwait : decode .op [0b0011#8] = .ok (.ackwait, []) := rfl
theorem test_decode_timeout : decode .op [0b0100#8] = .ok (.timeout, []) := rfl
theorem test_decode_rxbytes : decode .op [0b0101#8, 0x01#8, 0x7B#8, 0x00#8] = .ok (.rxbytes [0x7B#8], []) := rfl
theorem test_decode_extract : decode .op [0b0110#8] = .ok (.extract, []) := rfl
theorem test_decode_rxframe : decode .op [0b0111#8] = .ok (.rxframe, []) := rfl
theorem test_decode_crc8 : decode .op [0b1000#8, 0x00#8] = .ok (.crc8 [], []) := rfl
theorem test_decode_crc7 : decode .op [0b1001#8, 0x01#8, 0xFF#8, 0x00#8] = .ok (.crc7 [0xFF#8], []) := rfl
theorem test_decode_crc :
    decode .op [0b1010#8, 0x01#8, 0x01#8, 0x00#8, 0x01#8, 0xD5#8, 0x01#8, 0x01#8, 0x00#8, 0x01#8, 0x08#8, 0x00#8,
      0x01#8, 0x08#8, 0x00#8] = .ok (.crc [0x01#8] 0x1D5 8 8, []) := rfl
theorem test_decode_encodeFrame :
    decode .op [0b1011#8, 0x01#8, 0x0A#8, 0x00#8, 0x01#8, 0x0B#8, 0x00#8] = .ok (.encodeFrame [0x0A#8] [0x0B#8], []) := rfl
theorem test_decode_chunk : decode .op [0b1100#8, 0x01#8, 0x41#8, 0x00#8] = .ok (.chunk [0x41#8], []) := rfl
theorem test_decode_mkdata : decode .op [0b1101#8, 0x01#8, 0x01#8, 0x04#8, 0x00#8] = .ok (.mkdata 1#1 [0x04#8], []) := rfl
theorem test_decode_mkctl : decode .op [0b1110#8, 0x11#8, 0x01#8] = .ok (.mkctl 0x11#8 0x01#8, []) := rfl
theorem test_decode_ctlclass : decode .op [0b1111#8, 0x01#8, 0x10#8, 0x00#8] = .ok (.ctlclass [0x10#8], []) := rfl
theorem test_decode_wbStart : decode .wb [0b01111011#8] = .ok (.wbStart, []) := rfl
theorem test_decode_wbEnd : decode .wb [0b01111101#8] = .ok (.wbEnd, []) := rfl
theorem test_decode_wbEsc : decode .wb [0b01011100#8] = .ok (.wbEsc, []) := rfl
theorem test_decode_wbLit : decode .wb [0b01000001#8] = .ok (.wbLit 0x41#8, []) := rfl
theorem test_decode_cbAck : decode .cb [0b00010001#8] = .ok (.cbAck, []) := rfl
theorem test_decode_cbNak : decode .cb [0b00010000#8] = .ok (.cbNak, []) := rfl
theorem test_decode_cbCtlrsv : decode .cb [0b00110001#8] = .ok (.cbCtlrsv 0x31#8, []) := rfl
theorem test_decode_cbData : decode .cb [0b10000000#8] = .ok (.cbData 0x80#8, []) := rfl
theorem test_decode_frameNak0 :
    decodeTableWord 40 0b0111101100010000000000001011000001111101 = some .frameNak0 := rfl
theorem test_decode_frameNak1 :
    decodeTableWord 40 0b0111101100010000000000010110010101111101 = some .frameNak1 := rfl
theorem test_decode_frameAck0 :
    decodeTableWord 40 0b0111101100010001000000001011101101111101 = some .frameAck0 := rfl
theorem test_decode_frameAck1 :
    decodeTableWord 40 0b0111101100010001000000010110111001111101 = some .frameAck1 := rfl

/-! Rejections, by name. -/

theorem test_reject_noBytes : decode .wb [] = .error .noBytes := rfl
theorem test_reject_opIndex : decode .op [0x10#8] = .error .opIndexAbove15 := rfl
theorem test_reject_truncated : decode .op [0x01#8, 0x01#8] = .error .truncatedOperand := rfl
theorem test_reject_continuation : decode .op [0x01#8, 0x02#8] = .error .badContinuation := rfl
theorem test_reject_seqBit : decode .op [0x0D#8, 0x02#8, 0x00#8] = .error .seqBitAbove1 := rfl
theorem test_reject_frame : decode .frame [0x7B#8, 0x11#8, 0x00#8, 0x6E#8, 0x7D#8] = .error .notAControlFrame := rfl
theorem test_reject_trailing : decodeIssue ⟨.op, [0x02#8, 0x02#8]⟩ = .error .trailingBytes := rfl

/-- Words of the table, each read as its row (the one-byte rows in the order of log entry 3). -/
theorem test_table_words :
    (List.range 16).map (fun w => (decodeTableWord 8 w).map Instr.mnemonic) = opRows.map (fun r => some r.mnemonic) ∧
    [0x7B, 0x7D, 0x5C, 0x41, 0x11, 0x10, 0x30, 0x80].map (fun w => (decodeTableWord 8 w).map Instr.mnemonic) =
      [some "START", some "END", some "ESC", some "LIT", some "ACK", some "NAK", some "CTLRSV", some "DATA"] := by
  decide +kernel

/-! ### WellFormed: an ill-formed term for each check -/

theorem test_wf_crc_gen : (Instr.crc [] 0x0D5 8 8).wf = false := by decide
theorem test_wf_mkdata_length : (Instr.mkdata 0#1 (List.replicate 9 0x41#8)).wf = false := by decide
theorem test_wf_mkctl_control : (Instr.mkctl 0x13#8 0x00#8).wf = false := by decide
theorem test_wf_mkctl_sequence : (Instr.mkctl 0x11#8 0x02#8).wf = false := by decide
theorem test_wf_ctlclass_empty : (Instr.ctlclass []).wf = false := by decide
theorem test_wf_ctlclass_type : (Instr.ctlclass [0x01#8]).wf = false := by decide
theorem test_wf_lit_reserved :
    (Instr.wbLit 0x7B#8).wf = false ∧ (Instr.wbLit 0x7D#8).wf = false ∧ (Instr.wbLit 0x5C#8).wf = false := by decide
theorem test_wf_ctlrsv_type : (Instr.cbCtlrsv 0x01#8).wf = false := by decide
theorem test_wf_ctlrsv_defined : (Instr.cbCtlrsv 0x11#8).wf = false ∧ (Instr.cbCtlrsv 0x10#8).wf = false := by decide
theorem test_wf_data_type : (Instr.cbData 0x10#8).wf = false := by decide
theorem test_wf_good : (Instr.crc [] 0x1D5 8 8).wf = true ∧ (Instr.mkctl 0x10#8 0x01#8).wf = true := by decide

/-! ### One step each, against the vectors of 95_test_vectors.md -/

/-- The outcome is a next state with a property. -/
def nextWith (r : Result) (p : State → Bool) : Bool :=
  match r with
  | .next t => p t
  | .fault _ => false
  | .refused _ => false

/-- A station at reset with legal finite parameters and a timer. -/
def base : State :=
  { State.reset with params := { hasTimeout := true, accCap := some 22, maxPayload := some 8 } }

/-- "ABCDEFGH" -/
def eight : Bytes := [0x41#8, 0x42#8, 0x43#8, 0x44#8, 0x45#8, 0x46#8, 0x47#8, 0x48#8]

/-- The data frame of section 1.7 step 2. -/
def eightFrame : Bytes :=
  [0x7B#8, 0x00#8, 0x00#8, 0xC7#8, 0x41#8, 0x42#8, 0x43#8, 0x44#8, 0x45#8, 0x46#8, 0x47#8, 0x48#8, 0x7D#8]

/-- The data frame of section 2.9's TIMEOUT row. -/
def hiFrame : Bytes := [0x7B#8, 0x00#8, 0x00#8, 0x22#8, 0x48#8, 0x69#8, 0x7D#8]

/-- Waiting for the acknowledgment of `hiFrame`. -/
def waiting : State := { base with arq := .awaitingAck, txhold := hiFrame }

/-- Waiting, with a control frame in the slot. -/
def holding (c : Bytes) : State := { waiting with pcfFull := true, pcf := c }

/-- A payload in progress. -/
def loaded (q : Bytes) : State := { base with sqValid := true, sendq := q }

/-- A frame waiting in `rxpend`. -/
def pending (r : Bit) (f : Bytes) : State := { base with receiverSeq := r, rxpend := some f }

/-- Bytes in the accumulator. -/
def heard (acc : Bytes) : State := { base with rxacc := acc }

-- 2.9, RESET row
theorem test_reset :
    nextWith (exec .reset { holding [0x11#8] with senderSeq := 1#1, receiverSeq := 1#1, sendq := [0x41#8], sqValid := true, rxacc := [0x7B#8, 0x00#8] })
      (fun t => t.senderSeq == 0#1 && t.receiverSeq == 0#1 && t.arq == .idle && t.sendq == [] && !t.sqValid &&
        t.rxacc == [] && t.rxpend == none && !t.pcfFull && t.txLog == []) = true := by decide +kernel
-- 1.7 step 1
theorem test_send :
    nextWith (exec (.send eight) base) (fun t => t.sendq == eight && t.sqValid && t.arq == .idle && busy t) = true := by
  decide +kernel
-- 1.7 step 2
theorem test_txdata_full_chunk :
    nextWith (exec .txdata (loaded eight))
      (fun t => t.txLog == [eightFrame] && t.txhold == eightFrame && t.sendq == [] && t.sqValid && t.arq == .awaitingAck) = true := by
  decide +kernel
-- 2.9, TXDATA with an empty queue
theorem test_txdata_empty_chunk :
    nextWith (exec .txdata (loaded []))
      (fun t => t.txLog == [[0x7B#8, 0x00#8, 0x00#8, 0x00#8, 0x7D#8]] && !t.sqValid && t.arq == .awaitingAck) = true := by
  decide +kernel
-- 2.7, first row, and the row of a wrong sequence byte
theorem test_ackwait_success :
    nextWith (exec .ackwait (holding [0x11#8, 0x00#8, 0xBB#8]))
      (fun t => t.senderSeq == 1#1 && t.arq == .idle && !t.pcfFull && t.txLog == []) = true := by decide +kernel
theorem test_ackwait_mismatch :
    nextWith (exec .ackwait (holding [0x11#8, 0x01#8, 0x6E#8]))
      (fun t => t.senderSeq == 0#1 && t.arq == .awaitingAck && !t.pcfFull && t.txLog == [hiFrame]) = true := by decide +kernel
-- 2.9, TIMEOUT row
theorem test_timeout :
    nextWith (exec .timeout waiting) (fun t => t.txLog == [hiFrame] && t.arq == .awaitingAck && t.txhold == hiFrame) = true := by
  decide +kernel
-- 2.9, RXBYTES row
theorem test_rxbytes :
    nextWith (exec (.rxbytes [0x00#8, 0x00#8, 0x7D#8]) (heard [0x7B#8, 0x00#8]))
      (fun t => t.rxacc == [0x7B#8, 0x00#8, 0x00#8, 0x00#8, 0x7D#8]) = true := by decide +kernel
theorem test_rxbytes_overflow :
    exec (.rxbytes [0x00#8]) (heard (List.replicate 22 0x7B#8)) = .fault .accOverflow := rfl
-- 2.5: two restarts, and a restart before a lone ESC
theorem test_extract_restart :
    nextWith (exec .extract (heard [0x7B#8, 0x7B#8, 0x7B#8, 0x7D#8, 0x7D#8]))
      (fun t => t.rxpend == some [] && t.rxacc == [0x7D#8] && t.result == .frame (some [])) = true := by decide +kernel
theorem test_extract_lone_escape :
    nextWith (exec .extract (heard [0x41#8, 0x7B#8, 0x42#8, 0x5C#8]))
      (fun t => t.rxpend == none && t.rxacc == [0x7B#8, 0x42#8, 0x5C#8]) = true := by decide +kernel
-- 2.8: an accepted frame, and one with a wrong checksum and a wrong sequence byte
theorem test_rxframe_accept :
    nextWith (exec .rxframe (pending 0#1 [0x00#8, 0x00#8, 0x22#8, 0x48#8, 0x69#8]))
      (fun t => t.dlvLog == [[0x48#8, 0x69#8]] && t.txLog == [ack0Wire] && t.receiverSeq == 1#1 && t.rxpend == none) = true := by
  decide +kernel
theorem test_rxframe_nak_before_duplicate :
    nextWith (exec .rxframe (pending 0#1 [0x00#8, 0x01#8, 0x23#8, 0x48#8, 0x69#8]))
      (fun t => t.dlvLog == [] && t.txLog == [nak0Wire] && t.receiverSeq == 0#1) = true := by decide +kernel
-- 2.1
theorem test_crc8 : nextWith (exec (.crc8 [0x48#8, 0x69#8]) base) (fun t => t.result == .byte 0x22#8) = true := by decide +kernel
theorem test_crc7 : nextWith (exec (.crc7 [0xFF#8]) base) (fun t => t.result == .byte 0x03#8) = true := by decide +kernel
theorem test_crc : nextWith (exec (.crc [0x80#8] 0x1D5 8 8) base) (fun t => t.result == .byte 0xEF#8) = true := by decide +kernel
/-- 2.1, the trace of CRC8(`01`): the dividend after the input bits and after all eight flush steps. -/
theorem test_crc_trace :
    (List.range 9).map (fun n => crcRun 0x1D5 8 0 (bitStream [0x01#8] ++ List.replicate n false)) =
      [0x001, 0x002, 0x004, 0x008, 0x010, 0x020, 0x040, 0x080, 0x0D5] := by decide +kernel
-- 2.4
theorem test_encodeFrame :
    nextWith (exec (.encodeFrame [0x00#8, 0x00#8, 0x55#8] [0x7B#8, 0x41#8, 0x5C#8]) base)
      (fun t => t.result == .bytes [0x7B#8, 0x00#8, 0x00#8, 0x55#8, 0x5C#8, 0x7B#8, 0x41#8, 0x5C#8, 0x5C#8, 0x7D#8]) = true := by
  decide +kernel
-- 2.6
theorem test_chunk : nextWith (exec (.chunk eight) base) (fun t => t.result == .chunks [eight, []]) = true := by decide +kernel
-- 2.3
theorem test_mkdata_escaped_checksum :
    nextWith (exec (.mkdata 0#1 [0x18#8]) base)
      (fun t => t.result == .bytes [0x7B#8, 0x00#8, 0x00#8, 0x5C#8, 0x7B#8, 0x18#8, 0x7D#8]) = true := by decide +kernel
-- 2.4
theorem test_mkctl :
    nextWith (exec (.mkctl 0x11#8 0x01#8) base) (fun t => t.result == .bytes [0x7B#8, 0x11#8, 0x01#8, 0x6E#8, 0x7D#8]) = true := by
  decide +kernel
-- 2.7
theorem test_ctlclass_reserved :
    nextWith (exec (.ctlclass [0x13#8, 0x00#8, 0xAD#8]) base) (fun t => t.result == .ctl .nak) = true := by decide +kernel
theorem test_ctlclass_malformed :
    nextWith (exec (.ctlclass [0x11#8, 0x00#8, 0xBA#8]) base) (fun t => t.result == .ctl .malformed) = true := by decide +kernel
theorem test_wbStart : nextWith (exec .wbStart (heard [0x41#8])) (fun t => t.rxacc == [0x41#8, 0x7B#8]) = true := by decide +kernel
theorem test_wbEnd : nextWith (exec .wbEnd (heard [0x7B#8])) (fun t => t.rxacc == [0x7B#8, 0x7D#8]) = true := by decide +kernel
theorem test_wbEsc : nextWith (exec .wbEsc (heard [0x7B#8])) (fun t => t.rxacc == [0x7B#8, 0x5C#8]) = true := by decide +kernel
theorem test_wbLit : nextWith (exec (.wbLit 0x41#8) (heard [0x7B#8])) (fun t => t.rxacc == [0x7B#8, 0x41#8]) = true := by decide +kernel
-- 2.7: an ACK with a malformed checksum retransmits; NAK(0) and a reserved pattern too
theorem test_cbAck_malformed :
    nextWith (exec .cbAck (holding [0x11#8, 0x00#8, 0xB0#8])) (fun t => t.txLog == [hiFrame] && t.arq == .awaitingAck) = true := by
  decide +kernel
theorem test_cbNak : nextWith (exec .cbNak (holding [0x10#8, 0x00#8, 0xB0#8])) (fun t => t.txLog == [hiFrame]) = true := by decide +kernel
theorem test_cbCtlrsv :
    nextWith (exec (.cbCtlrsv 0x13#8) (holding [0x13#8, 0x00#8, 0xAD#8])) (fun t => t.txLog == [hiFrame]) = true := by decide +kernel
-- 2.8, control byte 0x80
theorem test_cbData :
    nextWith (exec (.cbData 0x80#8) (pending 0#1 [0x80#8, 0x00#8, 0x22#8, 0x48#8, 0x69#8]))
      (fun t => t.dlvLog == [[0x48#8, 0x69#8]] && t.txLog == [ack0Wire]) = true := by decide +kernel
-- 2.2: the listed frames arrive, and are what MKCTL builds
theorem test_frameNak0 : nextWith (exec .frameNak0 base) (fun t => t.rxacc == mkctl 0x10#8 0x00#8) = true := by decide +kernel
theorem test_frameNak1 : nextWith (exec .frameNak1 base) (fun t => t.rxacc == mkctl 0x10#8 0x01#8) = true := by decide +kernel
theorem test_frameAck0 : nextWith (exec .frameAck0 base) (fun t => t.rxacc == mkctl 0x11#8 0x00#8) = true := by decide +kernel
theorem test_frameAck1 : nextWith (exec .frameAck1 base) (fun t => t.rxacc == mkctl 0x11#8 0x01#8) = true := by decide +kernel
-- the first step after reset, from a word of the table
theorem test_step_from_reset :
    nextWith (Sys2Proof.core.step (State.reset.withFetchWord 8 0x01)) (fun t => t.sqValid && t.sendq == []) = true := by decide +kernel
theorem test_step_without_issue : step State.reset = .refused .noEvent := rfl
-- 1.7 steps 5 and 6, the transport of R58: a byte replaced, one lost, the rest kept in order
theorem test_link_fates :
    applyFates [.keep, .replace 0x68#8, .drop] [0x48#8, 0x69#8, 0x41#8, 0x42#8] = [0x48#8, 0x68#8] ∧
    dropBytes 3 [[0x48#8, 0x69#8], [0x41#8, 0x42#8]] = [[0x42#8]] := by decide +kernel

/-! ### Witnesses: the hypotheses of every statement can be met -/

theorem witness_DividendStaysBelowTheCheckBit : (0x1D5).testBit 8 = true := by decide
theorem witness_CrcIsThePolynomialRemainder : (0x1D5).testBit 8 = true ∧ 0x1D5 < 2 ^ (8 + 1) := by decide
theorem witness_SingleBitFlipChangesCrc8 :
    ∃ (bs : Bytes) (k i : Nat), k < bs.length ∧ i < 8 ∧ flipBit bs k i ≠ bs := ⟨[0x48#8, 0x69#8], 1, 7, by decide⟩
theorem witness_Crc8IsLinearAndBytewise :
    ∃ a b : Bytes, a.length = b.length ∧ a ≠ b := ⟨[0x48#8, 0x69#8], [0x80#8, 0x00#8], by decide⟩
theorem witness_FrameLengths_chunk : ∃ c : Bytes, c.length ≤ 8 ∧ c ≠ [] := ⟨eight, by decide⟩
theorem witness_FrameLengths_control : ∃ c : Byte, c = 0x10#8 ∨ c = 0x11#8 := ⟨0x11#8, by decide⟩
theorem witness_ExtractFollowsThePseudocode :
    base.rxpend = none ∧ (pending 0#1 [0x00#8]).rxpend = some [0x00#8] := ⟨rfl, rfl⟩
theorem witness_EncodeThenExtractRoundTrip :
    ∃ s : State, s.rxpend = none ∧ s.rxacc = frameOf [0x00#8, 0x01#8, 0x5C#8] [0x7B#8] ++ [0x7D#8] :=
  ⟨heard (frameOf [0x00#8, 0x01#8, 0x5C#8] [0x7B#8] ++ [0x7D#8]), rfl, rfl⟩
theorem witness_JunkBeforeStartIsDiscarded : ∀ b ∈ [0x41#8, 0x5C#8], b ≠ (0x7B#8 : Byte) := by decide
theorem witness_IncompleteFrameIsKept :
    ∃ s t : State, exec .extract s = .next t ∧ t.rxpend = none ∧ s.rxacc.head? = some 0x7B#8 ∧
      restarts false (s.rxacc.drop 1) = false :=
  ⟨heard [0x7B#8, 0x5C#8, 0x7B#8, 0x5C#8], _, rfl, by decide +kernel, by decide, by decide⟩
theorem witness_ExtractionIgnoresBatchBoundaries_idempotent :
    ∃ s t : State, exec .extract s = .next t ∧ t.rxpend = none :=
  ⟨heard [0x41#8, 0x7B#8, 0x42#8, 0x5C#8], _, rfl, by decide +kernel⟩
theorem witness_ExtractionIgnoresBatchBoundaries_none :
    extractFrom [0x41#8, 0x7B#8, 0x42#8, 0x5C#8] = ([0x7B#8, 0x42#8, 0x5C#8], none) := by decide +kernel
theorem witness_ExtractionIgnoresBatchBoundaries_all :
    ExtractAll [0x7B#8, 0x7D#8, 0x7B#8] [[]] [0x7B#8] ∧ ExtractAll ([0x7B#8] ++ [0x41#8, 0x7D#8]) [[0x41#8]] [] :=
  ⟨.more (acc' := [0x7B#8]) (by decide +kernel) (.done (by decide +kernel)),
   .more (acc' := []) (by decide +kernel) (.done (by decide +kernel))⟩
theorem witness_ChunksCutThePayload : 0 < eight.length / 8 := by decide
theorem witness_SendLoadsTheQueue_loads :
    base.sqValid = false ∧ base.arq = .idle ∧ ∀ n, base.params.maxPayload = some n → eight.length ≤ n :=
  ⟨rfl, rfl, fun n h => by cases h; decide⟩
theorem witness_SendLoadsTheQueue_busy : (loaded []).sqValid = true ∧ waiting.arq = .awaitingAck := ⟨rfl, rfl⟩
theorem witness_SendLoadsTheQueue_long :
    base.sqValid = false ∧ base.arq = .idle ∧ base.params.maxPayload = some 8 ∧ 8 < (eight ++ [0x49#8]).length := by decide
theorem witness_LazyChunkingEqualsChunk : ∃ s t : State, exec .txdata s = .next t ∧ t.sqValid = false :=
  ⟨loaded [0x39#8], _, rfl, by decide⟩
theorem witness_TxdataSendsTheNextChunk_full :
    (loaded eight).sqValid = true ∧ (loaded eight).arq = .idle ∧ 8 ≤ (loaded eight).sendq.length := by decide
theorem witness_TxdataSendsTheNextChunk_last :
    (loaded (eight.take 7)).sqValid = true ∧ (loaded (eight.take 7)).arq = .idle ∧ (loaded (eight.take 7)).sendq.length < 8 := by
  decide
theorem witness_TxdataSendsTheNextChunk_held :
    base.sqValid = false ∧ { waiting with sqValid := true }.sqValid = true ∧ { waiting with sqValid := true }.arq = .awaitingAck := by
  decide
theorem witness_CtlclassDecides : [0x11#8, 0x00#8].length ≠ 3 ∧ [0x11#8, 0x00#8, 0xBB#8, 0x00#8].length ≠ 3 := by decide
theorem witness_AckwaitActsOnTheSlot_success :
    ∃ s : State, s.arq = .awaitingAck ∧ s.pcfFull = true ∧
      s.pcf = [0x11#8, zext8 s.senderSeq, crc8 [0x11#8, zext8 s.senderSeq]] :=
  ⟨holding [0x11#8, 0x00#8, 0xBB#8], by decide +kernel⟩
theorem witness_AckwaitActsOnTheSlot_retransmit :
    ∃ s : State, s.arq = .awaitingAck ∧ s.pcfFull = true ∧
      s.pcf ≠ [0x11#8, zext8 s.senderSeq, crc8 [0x11#8, zext8 s.senderSeq]] :=
  ⟨holding [0x11#8, 0x02#8, 0xC4#8], by decide +kernel⟩
theorem witness_AckwaitActsOnTheSlot_held :
    base.arq = .idle ∧ waiting.arq = .awaitingAck ∧ waiting.pcfFull = false := by decide
theorem witness_TimeoutRetransmitsTheHeldFrame :
    waiting.arq = .awaitingAck ∧ waiting.params.hasTimeout = true ∧ base.arq = .idle := by decide
theorem witness_TimeoutRetransmitsTheHeldFrame_noTimer :
    ∃ s : State, s.arq = .awaitingAck ∧ s.params.hasTimeout = false :=
  ⟨{ waiting with params := { hasTimeout := false, accCap := none, maxPayload := none } }, by decide⟩
theorem witness_ArqMovesOnlyAsTheTransitionTableSays_start :
    ∃ s t : State, exec .txdata s = .next t ∧ s.arq = .idle ∧ t.arq = .awaitingAck := ⟨loaded eight, _, rfl, by decide, by decide⟩
theorem witness_ArqMovesOnlyAsTheTransitionTableSays_success :
    ∃ s t : State, exec .ackwait s = .next t ∧ s.arq = .awaitingAck ∧ t.arq = .idle :=
  ⟨holding [0x11#8, 0x00#8, 0xBB#8], _, rfl, by decide, by decide +kernel⟩
theorem witness_ArqMovesOnlyAsTheTransitionTableSays_completes :
    ∃ s t : State, exec .ackwait s = .next t ∧ busy s = true ∧ busy t = false :=
  ⟨holding [0x11#8, 0x00#8, 0xBB#8], _, rfl, by decide, by decide +kernel⟩
theorem witness_OperationsAreHeldAsTheTableSays :
    State.reset.params.accCap = none ∧ State.reset.params.maxPayload = none ∧ ∀ r, exec .extract State.reset ≠ .refused r :=
  ⟨rfl, rfl, fun _ h => nomatch h⟩
theorem witness_RxbytesAppends :
    (∀ n, (heard (List.replicate 21 0x7B#8)).params.accCap = some n → (heard (List.replicate 21 0x7B#8)).rxacc.length + [0x41#8].length ≤ n) ∧
    (heard (List.replicate 22 0x7B#8)).params.accCap = some 22 ∧ 22 < (heard (List.replicate 22 0x7B#8)).rxacc.length + [0x41#8].length :=
  ⟨fun n h => by cases h; decide, by decide⟩
theorem witness_RxframeEmptyAndControlFrames :
    (pending 0#1 []).rxpend = some [] ∧ (pending 0#1 [0x10#8]).rxpend = some [0x10#8] ∧ (0x10#8 : Byte).getLsbD 4 = true ∧
      (pending 0#1 [0x10#8]).pcfFull = false ∧ { pending 0#1 [0x10#8] with pcfFull := true }.pcfFull = true := by decide
theorem witness_RxframeRejectsDamagedData_runt :
    (pending 1#1 [0x00#8, 0x00#8]).rxpend = some (0x00#8 :: [0x00#8]) ∧ (0x00#8 : Byte).getLsbD 4 = false ∧ [0x00#8].length < 2 := by
  decide
theorem witness_RxframeRejectsDamagedData_mismatch :
    ∃ (s : State) (c : Byte) (f : Bytes), s.rxpend = some (c :: f) ∧ c.getLsbD 4 = false ∧
      ∃ q k p, f = q :: k :: p ∧ crc8 p ≠ k :=
  ⟨pending 0#1 [0x00#8, 0x00#8, 0x22#8, 0x48#8, 0x68#8], _, _, rfl, by decide, _, _, _, rfl, by decide +kernel⟩
theorem witness_RxframeReacknowledgesDuplicates :
    ∃ (s : State) (c q : Byte) (p : Bytes), s.rxpend = some (c :: q :: crc8 p :: p) ∧ c.getLsbD 4 = false ∧ q ≠ zext8 s.receiverSeq :=
  ⟨pending 1#1 [0x00#8, 0x02#8, 0x00#8], 0x00#8, 0x02#8, [], by decide +kernel⟩
theorem witness_RxframeAcceptsTheExpectedFrame :
    ∃ (s : State) (c : Byte) (p : Bytes), s.rxpend = some (c :: zext8 s.receiverSeq :: crc8 p :: p) ∧ c.getLsbD 4 = false :=
  ⟨pending 1#1 [0x01#8, 0x01#8, 0x22#8, 0x48#8, 0x69#8], 0x01#8, [0x48#8, 0x69#8], by decide +kernel⟩
theorem witness_OnlyAcceptedPayloadsAreDelivered :
    ∃ s t : State, exec .rxframe s = .next t ∧ t.dlvLog ≠ s.dlvLog :=
  ⟨pending 0#1 [0x00#8, 0x00#8, 0x00#8], _, rfl, by decide +kernel⟩
theorem witness_WireRowsArriveOnLineIn :
    (∀ n, (heard (List.replicate 21 0x41#8)).params.accCap = some n → (heard (List.replicate 21 0x41#8)).rxacc.length + 1 ≤ n) ∧
    (∀ n, (heard (List.replicate 17 0x41#8)).params.accCap = some n → (heard (List.replicate 17 0x41#8)).rxacc.length + 5 ≤ n) :=
  ⟨fun n h => by cases h; decide, fun n h => by cases h; decide⟩
theorem witness_ControlByteRowsActAsClassified_slot :
    (holding [0x11#8, 0x00#8, 0xBB#8]).arq = .awaitingAck ∧ (holding [0x11#8, 0x00#8, 0xBB#8]).pcfFull = true ∧
    (holding [0x11#8, 0x00#8, 0xBB#8]).pcf = 0x11#8 :: [0x00#8, 0xBB#8] ∧ (holding [0x10#8]).pcf = 0x10#8 :: [] ∧
    (holding [0xFF#8]).pcf = 0xFF#8 :: [] ∧ (0xFF#8 : Byte).getLsbD 4 = true ∧ 0xFF#8 ≠ (0x10#8 : Byte) ∧ 0xFF#8 ≠ (0x11#8 : Byte) := by
  decide
theorem witness_ControlByteRowsActAsClassified_data :
    (pending 0#1 [0xEF#8]).rxpend = some (0xEF#8 :: []) ∧ (0xEF#8 : Byte).getLsbD 4 = false := by decide
theorem witness_FaultsAreTheTwoModelFaults : State.reset.params.accCap = none ∧ State.reset.params.maxPayload = none := ⟨rfl, rfl⟩
theorem witness_AccessTableOfWrites :
    (∃ s t : State, exec .reset s = .next t) ∧ (∃ s t : State, exec (.send eight) s = .next t) ∧
    (∃ s t : State, exec .txdata s = .next t) ∧ (∃ s t : State, exec .ackwait s = .next t) ∧
    (∃ s t : State, exec .timeout s = .next t) ∧ (∃ s t : State, exec (.rxbytes eight) s = .next t) ∧
    (∃ s t : State, exec .extract s = .next t) ∧ (∃ s t : State, exec .rxframe s = .next t) :=
  ⟨⟨base, _, rfl⟩, ⟨base, _, rfl⟩, ⟨loaded eight, _, rfl⟩, ⟨holding [0x10#8], _, rfl⟩, ⟨waiting, _, rfl⟩, ⟨base, _, rfl⟩,
   ⟨base, _, rfl⟩, ⟨pending 0#1 [], _, rfl⟩⟩
theorem witness_ParametersAndScheduleAreNotWritten : ∃ (i : Instr) (s t : State), exec i s = .next t := ⟨.txdata, loaded eight, _, rfl⟩
theorem witness_ReceivePathIgnoresTheSendPath :
    ((∃ b, Instr.rxbytes [0x41#8] = .rxbytes b) ∨ Instr.rxbytes [0x41#8] = .extract ∨ Instr.rxbytes [0x41#8] = .rxframe) ∧
    (Instr.rxframe = .extract ∨ Instr.rxframe = .rxframe) := ⟨.inl ⟨_, rfl⟩, .inr rfl⟩
theorem witness_SendPathIgnoresTheReceivePath : ∃ s t : State, exec .ackwait s = .next t := ⟨holding [0x10#8], _, rfl⟩
theorem witness_UnspecifiedRegistersAreNotRead :
    base.arq = .idle ∧ base.pcfFull = false ∧ (∃ t, exec .txdata (loaded eight) = .next t) := ⟨rfl, rfl, _, rfl⟩
theorem witness_UnspecifiedRegistersAreNotRead_slot :
    ∃ s t : State, s.pcfFull = false ∧ exec .rxframe s = .next t ∧ t.pcfFull = true := ⟨pending 0#1 [0x10#8], _, rfl, rfl, rfl⟩
theorem witness_FullSlotIsNotOverwritten : ∃ s t : State, exec .rxframe s = .next t ∧ s.pcfFull = true :=
  ⟨{ pending 0#1 [0x00#8] with pcfFull := true, pcf := [0x10#8] }, _, rfl, rfl⟩
theorem witness_PendingFrameComesFromExtract :
    ∃ s t : State, exec .extract s = .next t ∧ t.rxpend = some [0x10#8] :=
  ⟨heard [0x7D#8, 0x7B#8, 0x10#8, 0x7D#8], _, rfl, by decide +kernel⟩
theorem witness_FullSlotStallsTheReceivePath :
    ∃ (i : Instr) (s t : State), s.rxpend = some [0x11#8] ∧ (0x11#8 : Byte).getLsbD 4 = true ∧ s.pcfFull = true ∧
      exec i s = .next t ∧ i ≠ .reset :=
  ⟨.rxbytes [0x7B#8], { pending 0#1 [0x11#8] with pcfFull := true, pcf := [0x11#8] }, _, rfl, by decide, rfl, rfl, by decide⟩
theorem witness_SilenceKeepsTheSenderWaiting :
    ∃ (s t : State), s.arq = .awaitingAck ∧ s.pcfFull = false ∧ exec .extract s = .next t ∧ s.params.hasTimeout = false :=
  ⟨{ waiting with params := { hasTimeout := false, accCap := none, maxPayload := none } }, _, rfl, rfl, rfl, rfl⟩
theorem witness_FrameConditionsInOrder :
    (pending 0#1 []).rxpend = some [] ∧ (pending 0#1 [0x31#8]).rxpend = some (0x31#8 :: []) ∧ (0x31#8 : Byte).getLsbD 4 = true ∧
    (pending 0#1 [0x00#8, 0x00#8]).rxpend = some (0x00#8 :: [0x00#8]) ∧ (0x00#8 : Byte).getLsbD 4 = false ∧ [0x00#8].length < 2 ∧
    (pending 0#1 [0x00#8, 0x01#8, 0x23#8, 0x48#8, 0x69#8]).rxpend = some (0x00#8 :: 0x01#8 :: 0x23#8 :: [0x48#8, 0x69#8]) := by
  decide
theorem witness_ExtractAndSlotConditions :
    (∃ s t : State, exec .extract s = .next t ∧ t.rxpend = none) ∧ (∃ s t : State, exec .ackwait s = .next t) :=
  ⟨⟨base, _, rfl, rfl⟩, ⟨holding [0x11#8], _, rfl⟩⟩
/-- Junk before a frame: the frame is returned and (b) is detected; without the junk it is not. -/
theorem witness_ExtractAndSlotConditions_frame :
    (∃ s t : State, exec .extract s = .next t ∧ t.rxpend = some [0x41#8] ∧
      s.rxacc = [0x6A#8] ++ [0x7B#8, 0x41#8, 0x7D#8] ∧ .damaged ∈ conditions .extract s) ∧
    (∃ s t : State, exec .extract s = .next t ∧ t.rxpend = some [0x7B#8] ∧ .damaged ∉ conditions .extract s) :=
  ⟨⟨heard [0x6A#8, 0x7B#8, 0x41#8, 0x7D#8], _, rfl, by decide +kernel, rfl, by decide +kernel⟩,
   ⟨heard [0x7B#8, 0x5C#8, 0x7B#8, 0x7D#8], _, rfl, by decide +kernel, by decide +kernel⟩⟩
theorem witness_ExtractAndSlotConditions_stops :
    (∃ s t : State, exec .cbAck s = .next t ∧ consumesSlot .cbAck = true) ∧ (∃ s t : State, exec .timeout s = .next t) :=
  ⟨⟨holding [0x11#8, 0x00#8, 0xBB#8], _, rfl, rfl⟩, ⟨waiting, _, rfl⟩⟩
theorem witness_LostLeadingZeroIsAccepted :
    ∃ (s : State) (p : Bytes), s.rxpend = some (0x00#8 :: zext8 s.receiverSeq :: crc8 (0x00#8 :: p) :: p) :=
  ⟨pending 0#1 [0x00#8, 0x00#8, 0x48#8, 0x41#8], [0x41#8], by decide +kernel⟩
theorem witness_DecodeInvertsEncode : (Instr.crc eight 0x1D5 8 8).wf = true := by decide
theorem witness_WireFormatsHaveOneMeaning :
    Format.cb ≠ .op ∧ decode .cb [0x31#8, 0x41#8] = .ok (.cbCtlrsv 0x31#8, [0x41#8]) := ⟨by decide, rfl⟩
theorem witness_StepRunsTheDecodedInstruction :
    ∃ (s : State) (e : Issue) (rest : List Issue), s.sched = e :: rest ∧ decodeIssue e = .ok .wbStart ∧
      decodeTableWord 8 0x7B = some .wbStart :=
  ⟨{ base with sched := [⟨.wb, [0x7B#8]⟩] }, _, _, rfl, rfl, rfl⟩
theorem witness_IssuedInstructionRuns :
    ∃ s : State, (Instr.send eight).wf = true ∧ s.sched = (Instr.send eight).issue :: [] :=
  ⟨{ base with sched := [(Instr.send eight).issue] }, rfl, rfl⟩

/-- A station in the invariant with a frame outstanding and a full slot: not only reset meets it. -/
theorem inv_holding : StationInv (holding [0x11#8, 0x00#8, 0xBB#8]) where
  queue := fun _ => rfl
  held := fun _ => ⟨[0x48#8, 0x69#8], by decide, by decide +kernel⟩
  slot := fun _ => ⟨0x11#8, [0x00#8, 0xBB#8], rfl, by decide⟩
  params := by decide
  wire := by intro f hf; cases hf

theorem witness_StepsKeepTheInvariant :
    ∃ s t : State, StationInv s ∧ CanStep s t := ⟨holding [0x11#8, 0x00#8, 0xBB#8], _, inv_holding, .ackwait, rfl⟩
theorem witness_StepsKeepTheInvariant_step :
    ∃ s t : State, StationInv s ∧ step s = .next t :=
  ⟨{ holding [0x11#8, 0x00#8, 0xBB#8] with sched := [⟨.op, [0x03#8]⟩] }, _,
   ⟨inv_holding.queue, inv_holding.held, inv_holding.slot, inv_holding.params, inv_holding.wire⟩, rfl⟩
theorem witness_ReachableStatesMeetTheInvariant :
    ∃ s₀ s : State, s₀.params.wf = true ∧ (∀ f ∈ s₀.txLog, isWireFrame f = true) ∧
      Relation.ReflTransGen CanStep (resetStation s₀) s ∧ s.sqValid = true :=
  ⟨base, { resetStation base with sendq := eight, sqValid := true }, by decide, (by intro f hf; cases hf),
   .single ⟨.send eight, rfl⟩, rfl⟩
theorem witness_TransportKeepsOrder : ∀ v, Fate.replace v ∉ [Fate.keep, .drop, .keep] := by
  intro v; simp
/-- The link after an event, or the same link where the event does not happen. -/
def after (x : LinkEvent) (l : Link) : Link :=
  match linkStep x l with
  | .next l' => l'
  | .fault _ | .refused _ => l
theorem after_eq (x : LinkEvent) (l : Link)
    (h : (match linkStep x l with | .next _ => true | .fault _ | .refused _ => false) = true) :
    linkStep x l = .next (after x l) := by
  unfold after; revert h; cases linkStep x l <;> intro h <;> first | rfl | cases h
/-- A payload is accepted and its frame transmitted. -/
def linkSent : Link := after (.op .a .txdata) (after (.op .a (.send [0x05#8])) (Link.fresh base.params base.params))

/-- A run of a link in which a payload was accepted and its frame lost. -/
theorem witness_LossyLinkDeliversExactlyOnce :
    ∃ l : Link, LossyRun (Link.fresh base.params base.params) l ∧ l.reqA = [[0x05#8]] ∧ l.a.arq = .awaitingAck ∧ l.ab = [] := by
  refine ⟨after (linkSent.lose .b) linkSent, .tail (.tail (.single ⟨.op .a (.send [0x05#8]), ?_, after_eq _ _ (by decide +kernel)⟩)
    ⟨.op .a .txdata, ?_, after_eq _ _ (by decide +kernel)⟩) ⟨linkSent.lose .b, Or.inr rfl, after_eq _ _ (by decide +kernel)⟩, ?_, ?_, ?_⟩
  · exact fun h => nomatch h
  · exact fun h => nomatch h
  all_goals decide +kernel

end Sys2Proof.Tests
end

