-- ==== Sys2Proof/Proofs/Checksum.lean ====
section
/-! PROOFS. The Checksum Engine (40_checksum.md R110 to R115).

Single-bit detection is shown without polynomials: two STEPs from one dividend tell the incoming bits
apart, and the STEPs behind them are injective in the dividend, because the generator has a constant
term (R115). -/

namespace Sys2Proof.Checksum

open Sys2Proof.Machine Sys2Proof.Safety

/-! ### One STEP (R111) -/

theorem shiftLeft_one_or_toNat (d : Nat) (b : Bool) : (d <<< 1) ||| b.toNat = Nat.bit b d := by
  have hshift : d <<< 1 = Nat.bit false d := by simp [Nat.shiftLeft_eq, Nat.bit_val, Nat.mul_comm]
  have hbit : b.toNat = Nat.bit b 0 := by simp [Nat.bit_val]
  rw [hshift, hbit, Nat.lor_bit, Bool.false_or, Nat.or_zero]

/-- The dividend is below 2^deg after every STEP (R110), whatever it was before. -/
theorem crcStep_lt {gen deg : Nat} (htop : gen.testBit deg = true) (d : Nat) (b : Bool) :
    crcStep gen deg d b < 2 ^ deg := by
  refine Nat.lt_pow_two_of_testBit _ fun i hi => ?_
  simp only [crcStep]
  generalize (d <<< 1) ||| b.toNat = x
  obtain rfl | hlt := Nat.eq_or_lt_of_le hi
  · split <;> simp_all
  · have habove : ¬ i < deg + 1 := by omega
    split <;> simp [Nat.testBit_mod_two_pow, habove]

/-- On a dividend and a generator of their stated widths, STEP cuts nothing off. -/
theorem crcStep_eq {gen deg d : Nat} (hgen : gen < 2 ^ (deg + 1)) (hd : d < 2 ^ deg) (b : Bool) :
    crcStep gen deg d b =
      if (Nat.bit b d).testBit deg then Nat.bit b d ^^^ gen else Nat.bit b d := by
  have hbit : Nat.bit b d < 2 ^ (deg + 1) := Nat.bit_lt_two_pow_succ_iff.2 hd
  simp [crcStep, shiftLeft_one_or_toNat, Nat.mod_eq_of_lt hbit,
    Nat.mod_eq_of_lt (Nat.xor_lt_two_pow hbit hgen)]

@[simp] theorem crcStep_zero_false (gen deg : Nat) : crcStep gen deg 0 false = 0 := by
  simp [crcStep]

/-! ### A run of STEPs (R110) -/

@[simp] theorem crcRun_nil (gen deg d : Nat) : crcRun gen deg d [] = d := rfl

@[simp] theorem crcRun_cons (gen deg d : Nat) (b : Bool) (bits : List Bool) :
    crcRun gen deg d (b :: bits) = crcRun gen deg (crcStep gen deg d b) bits := rfl

theorem crcRun_append (gen deg d : Nat) (as bs : List Bool) :
    crcRun gen deg d (as ++ bs) = crcRun gen deg (crcRun gen deg d as) bs :=
  List.foldl_append

theorem crcRun_lt {gen deg : Nat} (htop : gen.testBit deg = true) {d : Nat} (hd : d < 2 ^ deg)
    (bits : List Bool) : crcRun gen deg d bits < 2 ^ deg := by
  induction bits generalizing d with
  | nil => exact hd
  | cons b bits ih => exact ih (crcStep_lt htop d b)

/-- A zero dividend fed with zero bits stays zero (R114). -/
@[simp] theorem crcRun_zero_replicate_false (gen deg n : Nat) :
    crcRun gen deg 0 (List.replicate n false) = 0 := by
  induction n with
  | zero => rfl
  | succ n ih => simpa [List.replicate_succ] using ih

/-! ### The empty input (R114) -/

@[simp] theorem crc_nil (gen deg flush : Nat) : crc [] gen deg flush = 0x00#8 := by
  simp [crc, bitStream]

@[simp] theorem needsEscape_zext8 (q : Bit) : needsEscape (zext8 q) = false := by
  revert q; decide

/-- Settles O6: the dividend never leaves zero, and no metadata byte of the frame needs an escape. -/
theorem crcOfNothingIsZero : Obligations.CrcOfNothingIsZero := by
  refine ⟨crc_nil, fun q => ?_⟩
  have hzero : needsEscape 0x00#8 = false := by decide
  simp [mkdata, crc8, frameOf, stuffByte, hzero, Config.ctrlData, Config.startByte, Config.endByte]

/-! ### Generators with a constant term lose no bit (R115)

`hgen` and `htop` give the generator the degree `deg`; `hconst` is the constant term. -/

section Generator

variable {gen deg : Nat} (hgen : gen < 2 ^ (deg + 1)) (htop : gen.testBit deg = true)
  (hconst : gen.testBit 0 = true)

include hconst in
/-- Subtracting `gen` shows in bit 0. -/
theorem bit_xor_ne_bit (b : Bool) (d e : Nat) : Nat.bit b d ^^^ gen ≠ Nat.bit b e := by
  intro h
  have hlow := congrArg (Nat.testBit · 0) h
  simp only [Nat.testBit_xor, Nat.testBit_bit_zero, hconst, Bool.xor_true] at hlow
  exact Bool.not_ne_self b hlow

include hgen hconst in
/-- STEP is injective in the dividend: both results were reached by subtracting `gen`, or neither was. -/
theorem crcStep_left_inj {d e : Nat} (hd : d < 2 ^ deg) (he : e < 2 ^ deg) {b : Bool}
    (h : crcStep gen deg d b = crcStep gen deg e b) : d = e := by
  rw [crcStep_eq hgen hd, crcStep_eq hgen he] at h
  have hbit : Nat.bit b d = Nat.bit b e := by
    split at h <;> split at h
    · exact Nat.xor_left_inj.1 h
    · exact absurd h (bit_xor_ne_bit hconst b d e)
    · exact absurd h.symm (bit_xor_ne_bit hconst b e d)
    · exact h
  simpa only [Nat.bit_shiftRight_one] using congrArg (· >>> 1) hbit

include hgen in
/-- Two STEPs from one dividend tell the incoming bits apart: whether `gen` is subtracted is decided
by the dividend alone, which has a bit below bit `deg`. -/
theorem crcStep_right_inj (hpos : 0 < deg) {d : Nat} (hd : d < 2 ^ deg) {b c : Bool}
    (h : crcStep gen deg d b = crcStep gen deg d c) : b = c := by
  obtain ⟨n, rfl⟩ := Nat.exists_eq_succ_of_ne_zero hpos.ne'
  rw [crcStep_eq hgen hd, crcStep_eq hgen hd] at h
  have hbit : Nat.bit b d = Nat.bit c d := by
    simp only [Nat.testBit_bit_succ] at h
    split at h
    · exact Nat.xor_left_inj.1 h
    · exact h
  simpa only [Nat.testBit_bit_zero] using congrArg (Nat.testBit · 0) hbit

include hgen htop hconst

/-- A run over given bits is injective in the dividend it starts from. -/
theorem crcRun_left_inj {bits : List Bool} {d e : Nat} (hd : d < 2 ^ deg) (he : e < 2 ^ deg)
    (h : crcRun gen deg d bits = crcRun gen deg e bits) : d = e := by
  induction bits generalizing d e with
  | nil => exact h
  | cons b bits ih =>
    exact crcStep_left_inj hgen hconst hd he (ih (crcStep_lt htop d b) (crcStep_lt htop e b) h)

/-- One flipped input bit changes the dividend of the whole run. -/
theorem crcRun_flip_ne (hpos : 0 < deg) {d : Nat} (hd : d < 2 ^ deg) (pre post : List Bool) (x : Bool) :
    crcRun gen deg d (pre ++ (!x) :: post) ≠ crcRun gen deg d (pre ++ x :: post) := by
  intro h
  simp only [crcRun_append, crcRun_cons] at h
  have hstep := crcRun_left_inj hgen htop hconst (crcStep_lt htop _ _) (crcStep_lt htop _ _) h
  exact Bool.not_ne_self x (crcStep_right_inj hgen hpos (crcRun_lt htop hd pre) hstep)

end Generator

/-! ### A flipped bit in the bit stream (R52) -/

theorem bitStream_cons (b : Byte) (bs : Bytes) : bitStream (b :: bs) = bitsOf b ++ bitStream bs := rfl

theorem bitsOf_flip (b : Byte) {i : Nat} (hi : i < 8) :
    ∃ (pre post : List Bool) (x : Bool), bitsOf b = pre ++ x :: post ∧
      bitsOf (b ^^^ (1#8 <<< i)) = pre ++ (!x) :: post := by
  refine ⟨(bitsOf b).take (7 - i), (bitsOf b).drop (8 - i), b.getLsbD i, ?_⟩
  interval_cases i <;> simp [bitsOf]

theorem bitStream_flipBit {bs : Bytes} {k i : Nat} (hk : k < bs.length) (hi : i < 8) :
    ∃ (pre post : List Bool) (x : Bool), bitStream bs = pre ++ x :: post ∧
      bitStream (flipBit bs k i) = pre ++ (!x) :: post := by
  induction bs generalizing k with
  | nil => simp at hk
  | cons b bs ih =>
    cases k with
    | zero =>
      obtain ⟨pre, post, x, hbits, hflip⟩ := bitsOf_flip b hi
      exact ⟨pre, post ++ bitStream bs, x, by simp [bitStream_cons, hbits],
        by simp [flipBit, bitStream_cons, hflip]⟩
    | succ k =>
      obtain ⟨pre, post, x, hbits, hflip⟩ := ih (Nat.lt_of_succ_lt_succ hk)
      exact ⟨bitsOf b ++ pre, post, x, by simp [bitStream_cons, hbits],
        by simpa [flipBit, bitStream_cons] using hflip⟩

/-! ### Single-bit detection (R115) -/

/-- The dividend of CRC8 fits into the checksum byte, so that the cut to a byte loses nothing (R110). -/
theorem crc8_toNat (bs : Bytes) : (crc8 bs).toNat =
    crcRun Config.gen Config.deg 0 (bitStream bs ++ List.replicate Config.flush false) :=
  Nat.mod_eq_of_lt (crcRun_lt (deg := Config.deg) (by decide) (by decide) _)

/-- Settles O7: the flipped bit changes the dividend, and neither the bits behind it nor the flush
bits can undo that. -/
theorem singleBitFlipChangesCrc8 : Obligations.SingleBitFlipChangesCrc8 := by
  intro bs k i hk hi h
  obtain ⟨pre, post, x, hbits, hflip⟩ := bitStream_flipBit hk hi
  have hrun := congrArg BitVec.toNat h
  simp only [crc8_toNat, hbits, hflip, List.append_assoc, List.cons_append] at hrun
  exact crcRun_flip_ne (by decide) (by decide) (by decide) (by decide) (by decide) _ _ _ hrun

end Sys2Proof.Checksum
end

