-- ==== Sys2Proof/Proofs/Framer.lean ====
section
/-! PROOFS. The Byte-Stuffing Framer (41_framer.md R130 to R141).

What EXTRACT does with an accumulator is told by the byte at its head: junk is skipped, a START begins
a scan, and a scan goes on, restarts or completes. Appended bytes are then followed through a scan: one
that completes leaves them behind its frame, one that runs out is resumed by extracting from what it
kept (R138). -/

namespace Sys2Proof.Framer

open Sys2Proof.Machine Sys2Proof.Safety

/-! ### Stuffing (R130, R134) -/

theorem stuffByte_eq_ite (b : Byte) :
    stuffByte b = if b = 0x7B#8 ∨ b = 0x7D#8 ∨ b = 0x5C#8 then [0x5C#8, b] else [b] := by
  simp only [stuffByte, needsEscape_iff, Config.startByte, Config.endByte, Config.escByte]

/-- Settles O9: ENCODE is stuffing between the two delimiters, and the test on a byte is on its value. -/
theorem encodeStuffsByValue : Obligations.EncodeStuffsByValue := by
  intro m p
  simp only [← stuffByte_eq_ite]
  rfl

theorem length_stuffByte (b : Byte) : (stuffByte b).length = 1 + if needsEscape b then 1 else 0 := by
  cases h : needsEscape b <;> simp [stuffByte, h]

theorem length_flatMap_stuffByte (bs : Bytes) :
    (bs.flatMap stuffByte).length = bs.length + bs.countP needsEscape := by
  induction bs with
  | nil => rfl
  | cons b bs ih =>
    rw [List.flatMap_cons, List.length_append, length_stuffByte, ih, List.length_cons, List.countP_cons]
    omega

theorem length_frameOf (m p : Bytes) :
    (frameOf m p).length = 2 + m.length + p.length + (m ++ p).countP needsEscape := by
  simp only [frameOf, List.length_cons, List.length_append, length_flatMap_stuffByte, List.length_nil]
  omega

/-- Control byte and sequence byte need no escape, so beside the chunk only the checksum can. -/
theorem length_mkdata (q : Bit) (c : Bytes) :
    (mkdata q c).length =
      5 + c.length + (c.countP needsEscape + if needsEscape (crc8 c) then 1 else 0) := by
  have hctrl : needsEscape Config.ctrlData = false := by decide
  rw [mkdata, length_frameOf]
  simp [List.countP_cons, hctrl, Checksum.needsEscape_zext8]

/-- No byte of the four control frames needs an escape (R134). -/
theorem length_mkctl {ctrl : Byte} (h : ctrl = 0x10#8 ∨ ctrl = 0x11#8) (q : Bit) :
    (mkctl ctrl (zext8 q)).length = 5 := by
  obtain rfl | rfl := h <;> revert q <;> decide +kernel

/-- Settles O10: a frame is its delimiters, its bytes and one ESC for each byte that needs it. -/
theorem frameLengths : Obligations.FrameLengths := by
  refine ⟨fun m p => ?_, fun q c _ => ?_, fun q ctrl h => length_mkctl h q, by decide +kernel⟩
  · rw [length_frameOf]
    congr 2
    funext b
    rw [Bool.eq_iff_iff, needsEscape_iff, decide_eq_true_iff]
    rfl
  · have hchunk : c.countP needsEscape ≤ c.length := List.countP_le_length
    rw [length_mkdata]
    split <;> omega

/-! ### EXTRACT by the byte at the head (R135, R136) -/

@[simp] theorem extractFrom_nil : extractFrom [] = ([], none) := rfl

theorem extractFrom_start (bs : Bytes) :
    extractFrom (Config.startByte :: bs) = scanFrame (Config.startByte :: bs) [] false bs := by
  simp [extractFrom, fromStart]

theorem extractFrom_cons_of_ne {b : Byte} (h : b ≠ Config.startByte) (acc : Bytes) :
    extractFrom (b :: acc) = extractFrom acc := by
  simp [extractFrom, fromStart, h]

theorem extractFrom_junk_append {junk : Bytes} (h : ∀ b ∈ junk, b ≠ Config.startByte) (acc : Bytes) :
    extractFrom (junk ++ acc) = extractFrom acc := by
  induction junk with
  | nil => rfl
  | cons b junk ih =>
    obtain ⟨hb, hjunk⟩ := List.forall_mem_cons.1 h
    rw [List.cons_append, extractFrom_cons_of_ne hb, ih hjunk]

/-- Settles O14: junk is skipped byte by byte, an ESC like any other. -/
theorem junkBeforeStartIsDiscarded : Obligations.JunkBeforeStartIsDiscarded := by
  intro junk acc h
  refine ⟨extractFrom_junk_append h acc, ?_⟩
  simpa using extractFrom_junk_append h []

/-! ### EXTRACT reads what ENCODE emits (R140) -/

theorem scanFrame_flatMap_stuffByte (kept out bs rest : Bytes) :
    scanFrame kept out false (bs.flatMap stuffByte ++ rest) = scanFrame kept (out ++ bs) false rest := by
  induction bs generalizing out with
  | nil => simp
  | cons b bs ih => simp [scanFrame_stuffByte, ih]

theorem extractFrom_frameOf_append (m p rest : Bytes) :
    extractFrom (frameOf m p ++ rest) = (rest, some (m ++ p)) := by
  rw [frameOf, List.cons_append, List.append_assoc, extractFrom_start, scanFrame_flatMap_stuffByte]
  exact scanFrame_end _ _ rest

/-- Settles O13: the scan takes every stuffed byte back and stops at the unescaped END. -/
theorem encodeThenExtractRoundTrip : Obligations.EncodeThenExtractRoundTrip := by
  intro s m p rest hpend hacc
  have hextract : extractFrom s.rxacc = (rest, some (m ++ p)) := by
    rw [hacc, extractFrom_frameOf_append]
  refine ⟨_, execExtract_next_iff.2 ⟨hpend, rfl⟩, ?_, ?_, fun hm => ⟨List.take_left' hm, List.drop_left' hm⟩⟩
  · simp [hextract]
  · simp [hextract]

/-! ### Bytes appended to a scan (R138) -/

theorem byte_cases (b : Byte) :
    b = Config.escByte ∨ b = Config.endByte ∨ b = Config.startByte ∨ needsEscape b = false := by
  cases h : needsEscape b with
  | false => simp
  | true =>
    obtain rfl | rfl | rfl := needsEscape_iff.1 h <;> simp

/-- A scan that completes a frame never looks at what was kept, and leaves appended bytes behind the
frame. -/
theorem scanFrame_append_of_some {kept out bs rest f : Bytes} {esc : Bool}
    (h : scanFrame kept out esc bs = (rest, some f)) (kept₂ more : Bytes) :
    scanFrame kept₂ out esc (bs ++ more) = (rest ++ more, some f) := by
  induction bs generalizing kept out esc kept₂ with
  | nil => simp at h
  | cons b bs ih =>
    cases esc with
    | true =>
      rw [scanFrame_escaped] at h
      rw [List.cons_append, scanFrame_escaped, ih h]
    | false =>
      obtain rfl | rfl | rfl | hlit := byte_cases b
      · rw [scanFrame_esc] at h
        rw [List.cons_append, scanFrame_esc, ih h]
      · rw [scanFrame_end] at h
        cases h
        exact scanFrame_end _ _ _
      · rw [scanFrame_start] at h
        rw [List.cons_append, scanFrame_start, ih h]
      · rw [scanFrame_lit _ _ _ hlit] at h
        rw [List.cons_append, scanFrame_lit _ _ _ hlit, ih h]

/-- The scan with `out` and `esc` before `bs` is the one EXTRACT on `kept` arrives at, whatever bytes
follow. -/
def ArrivesAt (kept out : Bytes) (esc : Bool) (bs : Bytes) : Prop :=
  ∀ more, extractFrom (kept ++ more) = scanFrame (kept ++ more) out esc (bs ++ more)

theorem arrivesAt_start (bs : Bytes) : ArrivesAt (Config.startByte :: bs) [] false bs :=
  fun more => extractFrom_start (bs ++ more)

/-- A scan that runs out of bytes is resumed by extracting from what it kept: that holds where bytes run
out, and every byte before, a START included, leads to a scan EXTRACT arrives at. -/
theorem scanFrame_append_of_none {kept out bs kept' : Bytes} {esc : Bool}
    (harr : ArrivesAt kept out esc bs) (h : scanFrame kept out esc bs = (kept', none)) (more : Bytes) :
    scanFrame (kept ++ more) out esc (bs ++ more) = extractFrom (kept' ++ more) := by
  induction bs generalizing kept out esc with
  | nil =>
    cases h
    exact (harr more).symm
  | cons b bs ih =>
    cases esc with
    | true =>
      simp only [ArrivesAt, List.cons_append, scanFrame_escaped] at harr h ⊢
      exact ih harr h
    | false =>
      obtain rfl | rfl | rfl | hlit := byte_cases b
      · simp only [ArrivesAt, List.cons_append, scanFrame_esc] at harr h ⊢
        exact ih harr h
      · simp [scanFrame_end] at h
      · rw [scanFrame_start] at h
        rw [List.cons_append, scanFrame_start]
        exact ih (arrivesAt_start bs) h
      · simp only [ArrivesAt, List.cons_append, scanFrame_lit _ _ _ hlit] at harr h ⊢
        exact ih harr h

/-! ### Bytes appended to the accumulator (R138) -/

theorem extractFrom_append_of_some {acc rest f : Bytes} (h : extractFrom acc = (rest, some f))
    (more : Bytes) : extractFrom (acc ++ more) = (rest ++ more, some f) := by
  induction acc with
  | nil => simp at h
  | cons b acc ih =>
    by_cases hb : b = Config.startByte
    · subst hb
      rw [extractFrom_start] at h
      rw [List.cons_append, extractFrom_start, scanFrame_append_of_some h]
    · rw [extractFrom_cons_of_ne hb] at h
      rw [List.cons_append, extractFrom_cons_of_ne hb, ih h]

theorem extractFrom_append_of_none {acc kept : Bytes} (h : extractFrom acc = (kept, none))
    (more : Bytes) : extractFrom (acc ++ more) = extractFrom (kept ++ more) := by
  induction acc with
  | nil =>
    cases h
    rfl
  | cons b acc ih =>
    by_cases hb : b = Config.startByte
    · subst hb
      rw [extractFrom_start] at h
      rw [arrivesAt_start, scanFrame_append_of_none (arrivesAt_start acc) h]
    · rw [extractFrom_cons_of_ne hb] at h
      rw [List.cons_append, extractFrom_cons_of_ne hb, ih h]

/-- Extracting again from what a `none` kept changes nothing. -/
theorem extractFrom_kept {acc kept : Bytes} (h : extractFrom acc = (kept, none)) :
    extractFrom kept = (kept, none) := by
  have hresume := extractFrom_append_of_none h []
  rw [List.append_nil, List.append_nil] at hresume
  rw [← hresume, h]

/-! ### EXTRACT until `none` (R138) -/

theorem extractAll_of_extractFrom_eq {acc acc' kept : Bytes} {fs : List Bytes}
    (heq : extractFrom acc = extractFrom acc') (h : ExtractAll acc' fs kept) : ExtractAll acc fs kept := by
  cases h with
  | done hnone => exact .done (heq.trans hnone)
  | more hsome hrest => exact .more (heq.trans hsome) hrest

theorem extractAll_append {acc kept more k : Bytes} {fs gs : List Bytes} (h : ExtractAll acc fs kept)
    (hmore : ExtractAll (kept ++ more) gs k) : ExtractAll (acc ++ more) (fs ++ gs) k := by
  induction h with
  | done hnone => exact extractAll_of_extractFrom_eq (extractFrom_append_of_none hnone more) hmore
  | more hsome _ ih => exact .more (extractFrom_append_of_some hsome more) (ih hmore)

theorem exec_extract_idempotent {s t : State} (h : exec .extract s = .next t) (hnone : t.rxpend = none) :
    exec .extract t = .next t := by
  obtain ⟨-, rfl⟩ := execExtract_next_iff.1 h
  have hstop : extractFrom s.rxacc = ((extractFrom s.rxacc).1, none) := Prod.ext rfl hnone
  refine execExtract_next_iff.2 ⟨hnone, ?_⟩
  simp [returnValue, extractFrom_kept hstop, congrArg Prod.snd hstop]

/-- Settles O16: what a `none` keeps is all that a later EXTRACT needs of the bytes before it. -/
theorem extractionIgnoresBatchBoundaries : Obligations.ExtractionIgnoresBatchBoundaries :=
  ⟨fun _ _ => exec_extract_idempotent, fun _ _ more h => extractFrom_append_of_none h more,
    fun _ _ _ _ _ _ => extractAll_append⟩

end Sys2Proof.Framer
end

