-- ==== Sys2Proof/Proofs/Chunker.lean ====
section
/-! PROOFS. The Frame Chunker (42_chunker.md R150, R153).

CHUNK cuts at the multiples of 8: its full chunks together are the first 8q bytes. Seen from the front,
CHUNK is one take, then CHUNK of what that take leaves; that is how TXDATA comes to the same chunks. -/

namespace Sys2Proof.Chunker

open Sys2Proof.Machine Sys2Proof.Safety

/-! ### CHUNK, by its definition (R150) -/

/-- Any number of cuts of 8 bytes from the front, put together, is a prefix again. -/
theorem flatten_fullChunks (p : Bytes) (n : Nat) :
    ((List.range n).map fun i => (p.drop (8 * i)).take 8).flatten = p.take (8 * n) := by
  induction n with
  | zero => simp
  | succ n ih => simp [List.range_succ, ih, Nat.mul_succ, List.take_add]

theorem flatten_chunksOf (p : Bytes) : (chunksOf p).flatten = p := by
  simp [chunksOf, Config.chunkLen, flatten_fullChunks]

theorem length_chunksOf (p : Bytes) : (chunksOf p).length = p.length / 8 + 1 := by
  simp [chunksOf, Config.chunkLen]

theorem getElem?_chunksOf (p : Bytes) {i : Nat} (hi : i < p.length / 8) :
    (chunksOf p)[i]? = some ((p.drop (8 * i)).take 8) := by
  simp [chunksOf, Config.chunkLen, List.getElem?_append, hi]

theorem getLast?_chunksOf (p : Bytes) :
    (chunksOf p).getLast? = some (p.drop (8 * (p.length / 8))) := by
  simp [chunksOf, Config.chunkLen]

/-- Settles O17: the full chunks are 8 bytes long because the payload reaches past them, and the last
one is what the division by 8 leaves over. -/
theorem chunksCutThePayload : Obligations.ChunksCutThePayload := by
  intro p
  refine ⟨flatten_chunksOf p, length_chunksOf p,
    fun i hi => ⟨_, getElem?_chunksOf p hi, rfl, ?_⟩, ⟨_, getLast?_chunksOf p, ?_⟩⟩
  · rw [List.length_take, List.length_drop]
    omega
  · rw [List.length_drop]
    omega

/-! ### One take (R153) -/

theorem takeChunk_of_le {q : Bytes} (h : 8 ≤ q.length) : takeChunk q = (q.take 8, q.drop 8, true) :=
  if_pos h

theorem takeChunk_of_lt {q : Bytes} (h : q.length < 8) : takeChunk q = (q, [], false) :=
  if_neg (Nat.not_le.2 h)

theorem chunksOf_of_lt {q : Bytes} (h : q.length < 8) : chunksOf q = [q] := by
  simp [chunksOf, Config.chunkLen, Nat.div_eq_of_lt h]

theorem chunksOf_of_le {q : Bytes} (h : 8 ≤ q.length) : chunksOf q = q.take 8 :: chunksOf (q.drop 8) := by
  have hdiv : q.length / 8 = (q.length - 8) / 8 + 1 := by omega
  have hmul (i : Nat) : 8 * (i + 1) = 8 + 8 * i := by omega
  simp [chunksOf, Config.chunkLen, hdiv, hmul, List.range_succ_eq_map]

/-- CHUNK is the first take, then CHUNK of what that take leaves while it says a chunk is owed. -/
theorem chunksOf_eq_takeChunk (q : Bytes) :
    chunksOf q = (takeChunk q).1 :: if (takeChunk q).2.2 then chunksOf (takeChunk q).2.1 else [] := by
  obtain h | h := Nat.lt_or_ge q.length 8
  · simp [takeChunk_of_lt h, chunksOf_of_lt h]
  · simp [takeChunk_of_le h, chunksOf_of_le h]

/-- The take that leaves no chunk owed leaves no bytes either. -/
theorem takeChunk_rest_eq_nil {q : Bytes} (h : (takeChunk q).2.2 = false) : (takeChunk q).2.1 = [] := by
  obtain hlt | hle := Nat.lt_or_ge q.length 8
  · rw [takeChunk_of_lt hlt]
  · simp [takeChunk_of_le hle] at h

/-- Takes repeated to the last one give CHUNK's chunks; a bound above the number of full chunks does not
cut them short. -/
theorem lazyChunks_eq_chunksOf {n : Nat} {q : Bytes} (h : q.length / 8 < n) :
    lazyChunks n q = chunksOf q := by
  induction n generalizing q with
  | zero => omega
  | succ n ih =>
    rw [lazyChunks]
    obtain hlt | hle := Nat.lt_or_ge q.length 8
    · simp [takeChunk_of_lt hlt, chunksOf_of_lt hlt]
    · have hrest : (q.drop 8).length / 8 < n := by
        rw [List.length_drop]
        omega
      simp [takeChunk_of_le hle, chunksOf_of_le hle, ih hrest]

/-- Settles O19: TXDATA frames the chunk of one take, and CHUNK is that take and CHUNK of the rest. -/
theorem lazyChunkingEqualsChunk : Obligations.LazyChunkingEqualsChunk := by
  refine ⟨fun p => lazyChunks_eq_chunksOf (Nat.lt_succ_self _), fun s t h => ?_⟩
  obtain ⟨-, -, rfl⟩ := execTxdata_next_iff.1 h
  exact ⟨_, rfl, chunksOf_eq_takeChunk s.sendq, takeChunk_rest_eq_nil⟩

end Sys2Proof.Chunker
end

