-- ==== Sys2Proof/Proofs/ArqSend.lean ====
section
/-! PROOFS. The ARQ engine, send path (43_arq_send.md R163). -/

namespace Sys2Proof.ArqSend

open Sys2Proof.Machine Sys2Proof.Safety

/-! ### CTLCLASS (R163) -/

/-- The length is tested first: no byte of a runt or of an overlong frame is looked at. -/
theorem ctlClass_of_length_ne_three {c : Bytes} (h : c.length ≠ 3) : ctlClass c = .malformed := by
  match c with
  | [] | [_] | [_, _] | _ :: _ :: _ :: _ :: _ => rfl
  | [_, _, _] => exact absurd rfl h

/-- On three bytes the checksum is tested before the control byte, and only 0x11 is an ACK. -/
theorem ctlClass_three (c q k : Byte) : ctlClass [c, q, k] =
    if k ≠ crc8 [c, q] then .malformed else if c = 0x11#8 then .ack else .nak := by
  simp only [ctlClass, Config.ctrlAck, bne_iff_ne, beq_iff_eq]

/-- Settles O21: by the length of the frame, CTLCLASS's first test. -/
theorem ctlclassDecides : Obligations.CtlclassDecides :=
  ⟨fun _ => ctlClass_of_length_ne_three, ctlClass_three⟩

end Sys2Proof.ArqSend
end

