-- ==== Sys2Proof/Proofs/ArqReceive.lean ====
section
/-! PROOFS. The ARQ engine, receive path (44_arq_receive.md R180 to R189).

RXFRAME's case is told by the bytes of the frame, and the answer is one of the four control frames of
R90; the statements about RXFRAME put these two facts together. -/

namespace Sys2Proof.ArqReceive

open Sys2Proof.Machine Sys2Proof.Safety

/-! ### RXBYTES (R180) -/

/-- Settles O25: the batch fits or does not, and no byte of it is looked at. -/
theorem rxbytesAppends : Obligations.RxbytesAppends := by
  refine ⟨fun s b hfits => appendRx_next hfits, fun s b n hcap hover => appendRx_fault fun hfits => ?_⟩
  exact absurd (hfits n hcap) (Nat.not_le.2 hover)

/-! ### One-bit sequence numbers (R15) -/

theorem bit_cases (q : Bit) : q = 0#1 ∨ q = 1#1 := by
  revert q; decide

theorem complement_eq_zero_iff {q : Bit} : complement q = 0#1 ↔ q = 1#1 := by
  revert q; decide

/-! ### The four control frames (R90, R186) -/

theorem mkctl_nak_zero : mkctl 0x10#8 0x00#8 = [0x7B#8, 0x10#8, 0x00#8, 0xB0#8, 0x7D#8] := by
  decide +kernel

theorem mkctl_nak_one : mkctl 0x10#8 0x01#8 = [0x7B#8, 0x10#8, 0x01#8, 0x65#8, 0x7D#8] := by
  decide +kernel

theorem mkctl_ack_zero : mkctl 0x11#8 0x00#8 = [0x7B#8, 0x11#8, 0x00#8, 0xBB#8, 0x7D#8] := by
  decide +kernel

theorem mkctl_ack_one : mkctl 0x11#8 0x01#8 = [0x7B#8, 0x11#8, 0x01#8, 0x6E#8, 0x7D#8] := by
  decide +kernel

/-- Settles O30: MKCTL's equation is its definition, and each of the four frames is evaluated. -/
theorem mkctlBuildsTheFourControlFrames : Obligations.MkctlBuildsTheFourControlFrames :=
  ⟨fun _ _ => rfl, mkctl_nak_zero, mkctl_nak_one, mkctl_ack_zero, mkctl_ack_one⟩

theorem mkctl_ctrlNak (q : Bit) : mkctl Config.ctrlNak (zext8 q) =
    if q = 0#1 then [0x7B#8, 0x10#8, 0x00#8, 0xB0#8, 0x7D#8]
    else [0x7B#8, 0x10#8, 0x01#8, 0x65#8, 0x7D#8] := by
  obtain rfl | rfl := bit_cases q
  · exact mkctl_nak_zero
  · exact mkctl_nak_one

theorem mkctl_ctrlAck (q : Bit) : mkctl Config.ctrlAck (zext8 q) =
    if q = 0#1 then [0x7B#8, 0x11#8, 0x00#8, 0xBB#8, 0x7D#8]
    else [0x7B#8, 0x11#8, 0x01#8, 0x6E#8, 0x7D#8] := by
  obtain rfl | rfl := bit_cases q
  · exact mkctl_ack_zero
  · exact mkctl_ack_one

/-! ### The case of a frame (R182) -/

/-- The type test on the control byte is a test of its bit 4 (R85). -/
theorem isControl_eq_getLsbD (c : Byte) : isControl c = c.getLsbD 4 := by
  have hmask : c &&& Config.typeMask = if c.getLsbD 4 then BitVec.twoPow 8 4 else 0#8 :=
    BitVec.and_twoPow c 4
  rw [isControl, hmask]
  cases c.getLsbD 4 <;> rfl

section Data

variable {c : Byte} (hdata : isControl c = false) (r : Bit)

include hdata

theorem rxCase_data_of_length_lt {f : Bytes} (h : f.length < 2) : rxCase r (c :: f) = .runt := by
  match f with
  | [] | [_] => simp [rxCase, hdata]
  | _ :: _ :: _ => exact absurd h (Nat.not_lt.2 (Nat.le_add_left _ _))

/-- On three bytes or more the checksum is tested before the sequence byte, and that as a whole byte
(R87, R208). -/
theorem rxCase_data (q k : Byte) (p : Bytes) : rxCase r (c :: q :: k :: p) =
    if crc8 p ≠ k then .mismatch else if q = zext8 r then .accept else .duplicate := by
  simp [rxCase, hdata, seqMatches]

end Data

/-! ### RXFRAME (R182 to R189) -/

theorem exec_rxframe {s : State} {f : Bytes} (h : s.rxpend = some f) :
    exec .rxframe s = processFrame f s := by
  simp [exec, execRxframe, h]

/-- A runt and a mismatch draw the same answer (R185, R187). -/
theorem processFrame_damaged {s : State} {f : Bytes}
    (h : rxCase s.receiverSeq f = .runt ∨ rxCase s.receiverSeq f = .mismatch) :
    processFrame f s = .next (transmit (mkctl Config.ctrlNak (zext8 s.receiverSeq)) (clearPend s)) :=
  processFrame_next_iff.2 (.inr (.inr (.inl ⟨h, rfl⟩)))

theorem processFrame_duplicate {s : State} {f : Bytes} (h : rxCase s.receiverSeq f = .duplicate) :
    processFrame f s =
      .next (transmit (mkctl Config.ctrlAck (zext8 (complement s.receiverSeq))) (clearPend s)) :=
  processFrame_next_iff.2 (.inr (.inr (.inr (.inl ⟨h, rfl⟩))))

theorem processFrame_accept {s : State} {f : Bytes} (h : rxCase s.receiverSeq f = .accept) :
    processFrame f s = .next (toggleReceiver (transmit (mkctl Config.ctrlAck (zext8 s.receiverSeq))
      (deliver (payloadOf f) (clearPend s)))) :=
  processFrame_next_iff.2 (.inr (.inr (.inr (.inr ⟨h, rfl⟩))))

/-- Settles O27: such a frame is a runt or a mismatch, and both draw the NAK of `receiverSeq`. -/
theorem rxframeRejectsDamagedData : Obligations.RxframeRejectsDamagedData := by
  intro s c f hpend hdata hdamaged
  rw [← isControl_eq_getLsbD] at hdata
  have hcase : rxCase s.receiverSeq (c :: f) = .runt ∨ rxCase s.receiverSeq (c :: f) = .mismatch := by
    obtain hshort | ⟨q, k, p, rfl, hsum⟩ := hdamaged
    · exact .inl (rxCase_data_of_length_lt hdata _ hshort)
    · exact .inr (by rw [rxCase_data hdata, if_pos hsum])
  rw [exec_rxframe hpend, processFrame_damaged hcase, mkctl_ctrlNak]
  rfl

/-- Settles O28: the checksum agrees and the sequence byte does not, so the frame is a duplicate. -/
theorem rxframeReacknowledgesDuplicates : Obligations.RxframeReacknowledgesDuplicates := by
  intro s c q p hpend hdata hseq
  rw [← isControl_eq_getLsbD] at hdata
  have hcase : rxCase s.receiverSeq (c :: q :: crc8 p :: p) = .duplicate := by
    simp [rxCase_data hdata, hseq]
  rw [exec_rxframe hpend, processFrame_duplicate hcase, mkctl_ctrlAck]
  simp only [complement_eq_zero_iff]
  rfl

/-- Settles O29: checksum and sequence byte agree, so the frame is accepted, and its payload is what
stands behind its three metadata bytes. -/
theorem rxframeAcceptsTheExpectedFrame : Obligations.RxframeAcceptsTheExpectedFrame := by
  intro s c p hpend hdata
  rw [← isControl_eq_getLsbD] at hdata
  have hcase : rxCase s.receiverSeq (c :: zext8 s.receiverSeq :: crc8 p :: p) = .accept := by
    simp [rxCase_data hdata]
  rw [exec_rxframe hpend, processFrame_accept hcase, mkctl_ctrlAck]
  rfl

end Sys2Proof.ArqReceive
end

