-- ==== Sys2Proof/Proofs/Hazards.lean ====
section
/-! PROOFS. The hazards of the protocol (70_reset_and_hazards.md R246).

The dividend is zero before the first byte and zero bits leave it zero, so the checksum does not see
leading zero bytes; the acceptance is RXFRAME's ordinary one. -/

namespace Sys2Proof.Hazards

open Sys2Proof.Machine Sys2Proof.Safety Sys2Proof.Checksum

theorem bitsOf_zero : bitsOf 0x00#8 = List.replicate 8 false := by decide

/-- A leading zero byte is invisible to the checksum, whatever the generator (R116, R246). -/
theorem crc_zero_cons (bs : Bytes) (gen deg flush : Nat) :
    crc (0x00#8 :: bs) gen deg flush = crc bs gen deg flush := by
  simp only [crc, bitStream_cons, bitsOf_zero, List.append_assoc, crcRun_append,
    crcRun_zero_replicate_false]

theorem crc8_zero_cons (bs : Bytes) : crc8 (0x00#8 :: bs) = crc8 bs := crc_zero_cons bs _ _ _

/-- Settles O49: the checksum of `00 ++ p` is that of `p`, so the frame is the one RXFRAME expects
(R189). -/
theorem lostLeadingZeroIsAccepted : Obligations.LostLeadingZeroIsAccepted := by
  intro s p hpend
  rw [crc8_zero_cons] at hpend
  have hdata : (0x00#8 : Byte).getLsbD 4 = false := by decide
  exact ⟨_, ArqReceive.rxframeAcceptsTheExpectedFrame s _ p hpend hdata, rfl, rfl⟩

end Sys2Proof.Hazards
end

/-! PROOFS. The decoder and the step (30_encoding.md sections 1, 2 and 6).

A well-formed instruction is read back format by format: an operation by its index and the operand laws, a
wire byte and a control byte by the tests of their classes, a control frame by its five bytes. -/

namespace Sys2Proof.Codec

open Sys2Proof.Machine

/-! ### The classes of a byte (R80, R86) -/

theorem decodeWb_of_not_reserved {d : Byte} (h : reservedByte d = false) : decodeWb d = .wbLit d := by
  simp only [reservedByte, Bool.or_eq_false_iff] at h
  obtain ⟨⟨hstart, hend⟩, hesc⟩ := h
  simp [decodeWb, hstart, hend, hesc]

/-- The type bit is the only bit of the mask, so its two tests agree (R85, R86). -/
theorem masked_beq_mask (c : Byte) : ((c &&& Config.typeMask) == Config.typeMask) = typeBit c := by
  have hmask : c &&& Config.typeMask = if c.getLsbD 4 then BitVec.twoPow 8 4 else 0#8 :=
    BitVec.and_twoPow c 4
  rw [typeBit, hmask]
  cases c.getLsbD 4 <;> rfl

theorem decodeCb_of_reserved_pattern {c : Byte} (htype : typeBit c = true) (hack : c ≠ Config.ctrlAck)
    (hnak : c ≠ Config.ctrlNak) : decodeCb c = .cbCtlrsv c := by
  simp [decodeCb, hack, hnak, masked_beq_mask, htype]

theorem decodeCb_of_data {c : Byte} (htype : typeBit c = false) : decodeCb c = .cbData c := by
  have hack : c ≠ Config.ctrlAck := by rintro rfl; cases htype
  have hnak : c ≠ Config.ctrlNak := by rintro rfl; cases htype
  simp [decodeCb, hack, hnak, masked_beq_mask, htype]

/-! ### Decode after encode -/

/-- Settles O51, by the instruction: its operands are read back by the operand laws, and an operand that
is the whole word of its row by the class its well-formedness puts it in. -/
theorem decodeInvertsEncode : Obligations.DecodeInvertsEncode := by
  intro i rest hwf
  cases i with
  | reset | txdata | ackwait | timeout | extract | rxframe => rfl
  | send p | rxbytes p | crc8 p | crc7 p | chunk p | ctlclass p => exact withSeq_putSeq p rest _
  | crc p g d f =>
    simp only [encode, Instr.format, List.cons_append, List.append_assoc]
    change withSeq (putSeq p ++ _) _ = _
    simp only [withSeq_putSeq, withNat_putNat]
  | encodeFrame m p =>
    simp only [encode, Instr.format, List.cons_append, List.append_assoc]
    change withSeq (putSeq m ++ _) _ = _
    simp only [withSeq_putSeq]
  | mkdata q c =>
    change withBit (BitVec.setWidth 8 q :: (putSeq c ++ rest))
      (fun q' r => withSeq r fun c' r' => .ok (.mkdata q' c', r')) = _
    rw [withBit_cons, withSeq_putSeq]
  | mkctl c q => rfl
  | wbStart | wbEnd | wbEsc => rfl
  | wbLit d =>
    have hlit := decodeWb_of_not_reserved (d := d) (by simpa [Instr.wf] using hwf)
    simp [encode, Instr.format, decode, hlit]
  | cbAck | cbNak => rfl
  | cbCtlrsv c =>
    simp only [Instr.wf, Bool.and_eq_true, bne_iff_ne] at hwf
    obtain ⟨⟨htype, hack⟩, hnak⟩ := hwf
    simp [encode, Instr.format, decode, decodeCb_of_reserved_pattern htype hack hnak]
  | cbData c =>
    have hdata := decodeCb_of_data (c := c) (by simpa [Instr.wf] using hwf)
    simp [encode, Instr.format, decode, hdata]
  | frameNak0 | frameNak1 | frameAck0 | frameAck1 => rfl

/-! ### Encode after decode, in the formats of the wire -/

/-- A wire byte belongs to the class that it is decoded to. -/
theorem decodeWb_sound (b : Byte) :
    (decodeWb b).wf = true ∧ (decodeWb b).format = .wb ∧ encode (decodeWb b) = [b] := by
  unfold decodeWb
  split_ifs with hstart hend hesc
  · exact ⟨rfl, rfl, congrArg (fun x => [x]) (beq_iff_eq.1 hstart).symm⟩
  · exact ⟨rfl, rfl, congrArg (fun x => [x]) (beq_iff_eq.1 hend).symm⟩
  · exact ⟨rfl, rfl, congrArg (fun x => [x]) (beq_iff_eq.1 hesc).symm⟩
  · simp [Instr.wf, reservedByte, Instr.format, encode, hstart, hend, hesc]

/-- A control byte belongs to the class that it is decoded to. -/
theorem decodeCb_sound (c : Byte) :
    (decodeCb c).wf = true ∧ (decodeCb c).format = .cb ∧ encode (decodeCb c) = [c] := by
  unfold decodeCb
  split_ifs with hack hnak htype
  · exact ⟨rfl, rfl, congrArg (fun x => [x]) (beq_iff_eq.1 hack).symm⟩
  · exact ⟨rfl, rfl, congrArg (fun x => [x]) (beq_iff_eq.1 hnak).symm⟩
  · rw [masked_beq_mask] at htype
    simp_all [Instr.wf, Instr.format, encode]
  · rw [masked_beq_mask] at htype
    simp_all [Instr.wf, Instr.format, encode]

/-- What is decoded as a control frame begins with that frame's five bytes. -/
theorem decodeFrame_sound {bs rest : Bytes} {i : Instr} (h : decodeFrame bs = .ok (i, rest)) :
    i.wf = true ∧ i.format = .frame ∧ encode i ++ rest = bs := by
  have hsplit {w : Bytes} (hw : (bs.take 5 == w) = true) : w ++ bs.drop 5 = bs := by
    rw [← beq_iff_eq.1 hw, List.take_append_drop]
  unfold decodeFrame at h
  dsimp only at h
  split_ifs at h with hnak0 hnak1 hack0 hack1 <;> cases h
  · exact ⟨rfl, rfl, hsplit hnak0⟩
  · exact ⟨rfl, rfl, hsplit hnak1⟩
  · exact ⟨rfl, rfl, hsplit hack0⟩
  · exact ⟨rfl, rfl, hsplit hack1⟩

/-- Settles O52: by the format, a wire byte, a control byte or a whole frame. -/
theorem wireFormatsHaveOneMeaning : Obligations.WireFormatsHaveOneMeaning := by
  intro f bs rest i hop h
  cases bs with
  | nil => cases f <;> cases h
  | cons b bs =>
    cases f with
    | op => exact absurd rfl hop
    | wb =>
      cases h
      obtain ⟨hwf, hformat, hencode⟩ := decodeWb_sound b
      exact ⟨hwf, hformat, by rw [hencode]; rfl⟩
    | cb =>
      cases h
      obtain ⟨hwf, hformat, hencode⟩ := decodeCb_sound b
      exact ⟨hwf, hformat, by rw [hencode]; rfl⟩
    | frame => exact decodeFrame_sound h

/-- Settles O50: each word is read by the decoder's own tests. -/
theorem tableWordsDecode : Obligations.TableWordsDecode :=
  ⟨rfl, rfl, rfl, rfl, rfl, rfl, rfl, rfl, rfl⟩

/-! ### The step takes an issue from the front of `sched` (R7, R209) -/

theorem step_of_decodeIssue {s : State} {e : Issue} {rest : List Issue} {i : Instr}
    (hsched : s.sched = e :: rest) (hdecode : decodeIssue e = .ok i) :
    step s = exec i { s with sched := rest } := by
  simp [step, hsched, hdecode]

theorem decodeTableWord_eq_some {nbits w : Nat} {i : Instr} (h : decodeTableWord nbits w = some i) :
    decodeIssue (tableIssue nbits w) = .ok i := by
  unfold decodeTableWord at h
  cases hissue : decodeIssue (tableIssue nbits w) with
  | ok j => simpa [hissue] using h
  | error r => simp [hissue] at h

/-- Settles O53: the issue placed by `withFetchWord` is the front of `sched`, and taking it away gives the
state it was placed in. -/
theorem stepRunsTheDecodedInstruction : Obligations.StepRunsTheDecodedInstruction :=
  ⟨fun _ _ _ _ => step_of_decodeIssue, fun _ _ _ _ h => step_of_decodeIssue rfl (decodeTableWord_eq_some h)⟩

theorem decodeIssue_issue {i : Instr} (hwf : i.wf = true) : decodeIssue i.issue = .ok i := by
  have hdecode := decodeInvertsEncode i [] hwf
  rw [List.append_nil] at hdecode
  simp [decodeIssue, Instr.issue, hdecode]

/-- Settles O54: the encoding is read back with nothing left over. -/
theorem issuedInstructionRuns : Obligations.IssuedInstructionRuns :=
  fun _ _ _ hwf hsched => step_of_decodeIssue hsched (decodeIssue_issue hwf)

end Sys2Proof.Codec

/-! PROOFS. The Checksum Engine as arithmetic over GF(2) (40_checksum.md R110 to R113, R116).

One STEP takes a bit into the dividend and subtracts the generator or not. Followed over a run, the
subtractions are a multiple of the generator, so that what is left is the remainder of the input; and a
STEP of two dividends' sum is the sum of their STEPs, so that a run is linear. -/

namespace Sys2Proof.Polynomial

open Sys2Proof.Machine Sys2Proof.Safety Sys2Proof.Checksum

/-- Settles O4: it holds of the zero dividend and is kept by each STEP. -/
theorem dividendStaysBelowTheCheckBit : Obligations.DividendStaysBelowTheCheckBit :=
  fun _ deg bits htop => crcRun_lt htop (Nat.two_pow_pos deg) bits

/-! ### Runs over zero bits (R113) -/

/-- x^3 leaves 1 when divided by the generator of CRC7: three zero bits bring its dividend back. -/
theorem crcRun_gen7_three_zeros {d : Nat} (hd : d < 2 ^ Config.deg7) :
    crcRun Config.gen7 Config.deg7 d (List.replicate 3 false) = d := by
  have hall : ∀ e < 2 ^ Config.deg7, crcRun Config.gen7 Config.deg7 e (List.replicate 3 false) = e := by
    decide
  exact hall d hd

theorem crcRun_gen7_lt (bits : List Bool) : crcRun Config.gen7 Config.deg7 0 bits < 2 ^ Config.deg7 :=
  crcRun_lt (by decide) (by decide) bits

/-- Three more flush bits do not change a checksum of CRC7. -/
theorem crc_gen7_flush_add_three (bs : Bytes) (n : Nat) :
    crc bs Config.gen7 Config.deg7 (n + 3) = crc bs Config.gen7 Config.deg7 n := by
  rw [crc, List.replicate_add, ← List.append_assoc, crcRun_append, crcRun_gen7_three_zeros (crcRun_gen7_lt _)]
  rfl

theorem crc7_lt (bs : Bytes) : (crc7 bs).toNat < 8 :=
  Nat.lt_of_le_of_lt (Nat.mod_le _ _) (crcRun_gen7_lt _)

/-- Settles O3: the flush of 6 is twice three bits that change nothing. -/
theorem crc7IsBelowEight : Obligations.Crc7IsBelowEight := fun bs =>
  ⟨rfl, crc7_lt bs, (crc_gen7_flush_add_three bs 3).symm,
    ((crc_gen7_flush_add_three bs 3).trans (crc_gen7_flush_add_three bs 0)).symm⟩

/-! ### Bits as numbers (R52) -/

/-- A number with the bits of a run appended at its low end. -/
def appendBits (n : Nat) (bits : List Bool) : Nat := bits.foldl (fun m b => Nat.bit b m) n

theorem appendBits_append (n : Nat) (as bs : List Bool) :
    appendBits n (as ++ bs) = appendBits (appendBits n as) bs := List.foldl_append

theorem appendBits_concat (n : Nat) (bits : List Bool) (b : Bool) :
    appendBits n (bits ++ [b]) = Nat.bit b (appendBits n bits) := appendBits_append n bits [b]

/-- Appending is placing the number above the bits. -/
theorem appendBits_eq_add (n : Nat) (bits : List Bool) :
    appendBits n bits = 2 ^ bits.length * n + appendBits 0 bits := by
  induction bits using List.reverseRecOn with
  | nil => simp [appendBits]
  | append_singleton bits b ih =>
    simp only [appendBits_concat, ih, Nat.bit_val, List.length_append, List.length_singleton, Nat.pow_succ]
    ring

theorem length_bitsOf (b : Byte) : (bitsOf b).length = 8 := rfl

theorem appendBits_bitsOf (n : Nat) (b : Byte) : appendBits n (bitsOf b) = 256 * n + b.toNat := by
  have hbyte : ∀ c : Byte, appendBits 0 (bitsOf c) = c.toNat := by decide +kernel
  rw [appendBits_eq_add, hbyte, length_bitsOf]
  norm_num

theorem appendBits_bitStream (n : Nat) (bs : Bytes) :
    appendBits n (bitStream bs) = bs.foldl (fun n b => 256 * n + b.toNat) n := by
  induction bs generalizing n with
  | nil => rfl
  | cons b bs ih => rw [bitStream_cons, appendBits_append, appendBits_bitsOf, ih, List.foldl_cons]

theorem appendBits_replicate_false (n k : Nat) : appendBits n (List.replicate k false) = n <<< k := by
  induction k with
  | zero => rfl
  | succ k ih => rw [List.replicate_succ', appendBits_concat, ih, Nat.shiftLeft_succ, Nat.bit_val]; rfl

/-! ### Multiples of the generator (R111) -/

theorem generatorMultiple_concat (gen : Nat) (shifts : List Nat) (k : Nat) :
    generatorMultiple gen (shifts ++ [k]) = generatorMultiple gen shifts ^^^ (gen <<< k) :=
  List.foldl_append

/-- Multiplying by x raises every exponent. -/
theorem generatorMultiple_map_succ (gen : Nat) (shifts : List Nat) :
    generatorMultiple gen (shifts.map (· + 1)) = Nat.bit false (generatorMultiple gen shifts) := by
  induction shifts using List.reverseRecOn with
  | nil => rfl
  | append_singleton shifts k ih =>
    have hshift : gen <<< (k + 1) = Nat.bit false (gen <<< k) := by
      rw [Nat.shiftLeft_succ, Nat.bit_val]; rfl
    rw [List.map_append, List.map_singleton, generatorMultiple_concat, generatorMultiple_concat, ih, hshift,
      Nat.xor_bit, Bool.bne_false]

/-! ### The remainder (R8, R110, R111) -/

section Generator

variable {gen deg : Nat} (htop : gen.testBit deg = true) (hgen : gen < 2 ^ (deg + 1))

include hgen

/-- STEP of a sum is the sum of the STEPs. -/
theorem crcStep_xor {d e : Nat} (hd : d < 2 ^ deg) (he : e < 2 ^ deg) (b c : Bool) :
    crcStep gen deg (d ^^^ e) (b ^^ c) = crcStep gen deg d b ^^^ crcStep gen deg e c := by
  rw [crcStep_eq hgen (Nat.xor_lt_two_pow hd he), crcStep_eq hgen hd, crcStep_eq hgen he, ← Bool.bne_eq_xor,
    ← Nat.xor_bit, Nat.testBit_xor]
  generalize Nat.bit b d = x
  generalize Nat.bit c e = y
  cases x.testBit deg <;> cases y.testBit deg
  · rfl
  · exact Nat.xor_assoc x y gen
  · exact Nat.xor_right_comm x y gen
  · calc x ^^^ y = x ^^^ y ^^^ (gen ^^^ gen) := by rw [Nat.xor_self, Nat.xor_zero]
      _ = x ^^^ gen ^^^ (y ^^^ gen) := by ac_rfl

include htop

/-- The dividend of a run differs from its input by a multiple of the generator: each STEP multiplies
the difference by x and may add the generator itself. -/
theorem crcRun_eq_xor_generatorMultiple (bits : List Bool) :
    ∃ shifts, crcRun gen deg 0 bits = appendBits 0 bits ^^^ generatorMultiple gen shifts := by
  induction bits using List.reverseRecOn with
  | nil => exact ⟨[], (Nat.xor_zero 0).symm⟩
  | append_singleton bits b ih =>
    obtain ⟨shifts, hrun⟩ := ih
    have hlt : crcRun gen deg 0 bits < 2 ^ deg := crcRun_lt htop (Nat.two_pow_pos deg) bits
    have hbit : Nat.bit b (crcRun gen deg 0 bits) =
        appendBits 0 (bits ++ [b]) ^^^ generatorMultiple gen (shifts.map (· + 1)) := by
      rw [hrun, appendBits_concat, generatorMultiple_map_succ, Nat.xor_bit, Bool.bne_false]
    rw [crcRun_append, crcRun_cons, crcRun_nil, crcStep_eq hgen hlt]
    split
    · refine ⟨shifts.map (· + 1) ++ [0], ?_⟩
      rw [hbit, generatorMultiple_concat, Nat.xor_assoc]
      rfl
    · exact ⟨_, hbit⟩

/-- A run over the sum of two streams of equal length is the sum of the runs. -/
theorem crcRun_xor {as bs : List Bool} (hlen : as.length = bs.length) {d e : Nat} (hd : d < 2 ^ deg)
    (he : e < 2 ^ deg) :
    crcRun gen deg (d ^^^ e) (List.zipWith xor as bs) = crcRun gen deg d as ^^^ crcRun gen deg e bs := by
  induction as generalizing bs d e with
  | nil =>
    obtain rfl := List.length_eq_zero_iff.1 hlen.symm
    rfl
  | cons a as ih =>
    cases bs with
    | nil => cases hlen
    | cons b bs =>
      rw [List.zipWith_cons_cons, crcRun_cons, crcRun_cons, crcRun_cons, crcStep_xor hgen hd he]
      exact ih (Nat.succ.inj hlen) (crcStep_lt htop d a) (crcStep_lt htop e b)

end Generator

/-- Settles O5: the input of the run, read as a number, is the message times x^flush. -/
theorem crcIsThePolynomialRemainder : Obligations.CrcIsThePolynomialRemainder := by
  intro bs gen deg flush htop hgen
  have hinput : appendBits 0 (bitStream bs ++ List.replicate flush false) = messageNumber bs <<< flush := by
    rw [appendBits_append, appendBits_bitStream, appendBits_replicate_false]
    rfl
  obtain ⟨shifts, hrun⟩ :=
    crcRun_eq_xor_generatorMultiple htop hgen (bitStream bs ++ List.replicate flush false)
  rw [hinput] at hrun
  exact ⟨shifts, _, crcRun_lt htop (Nat.two_pow_pos deg) _, hrun.symm, rfl⟩

/-! ### CRC8 is linear (R116) -/

/-- The dividend of CRC8 after a run. -/
abbrev run8 (d : Nat) (bits : List Bool) : Nat := crcRun Config.gen Config.deg d bits

/-- The zero bits that flush CRC8. -/
abbrev zeros8 : List Bool := List.replicate Config.flush false

theorem run8_xor {as bs : List Bool} (hlen : as.length = bs.length) {d e : Nat} (hd : d < 256)
    (he : e < 256) : run8 (d ^^^ e) (List.zipWith xor as bs) = run8 d as ^^^ run8 e bs :=
  crcRun_xor (by decide) (by decide) hlen hd he

theorem run8_lt {d : Nat} (hd : d < 256) (bits : List Bool) : run8 d bits < 256 :=
  crcRun_lt (deg := Config.deg) (by decide) hd bits

theorem run8_append (d : Nat) (as bs : List Bool) : run8 d (as ++ bs) = run8 (run8 d as) bs :=
  crcRun_append _ _ d as bs

theorem crc8_toNat_eq_run8 (bs : Bytes) : (crc8 bs).toNat = run8 0 (bitStream bs ++ zeros8) := crc8_toNat bs

theorem length_bitStream (bs : Bytes) : (bitStream bs).length = 8 * bs.length := by
  induction bs with
  | nil => rfl
  | cons b bs ih => rw [bitStream_cons, List.length_append, length_bitsOf, ih, List.length_cons]; omega

theorem bitsOf_xor (a b : Byte) : bitsOf (a ^^^ b) = List.zipWith xor (bitsOf a) (bitsOf b) := by
  simp [bitsOf]

theorem bitStream_xorBytes {a b : Bytes} (hlen : a.length = b.length) :
    bitStream (xorBytes a b) = List.zipWith xor (bitStream a) (bitStream b) := by
  induction a generalizing b with
  | nil =>
    obtain rfl := List.length_eq_zero_iff.1 hlen.symm
    rfl
  | cons x a ih =>
    cases b with
    | nil => cases hlen
    | cons y b =>
      have htail := ih (Nat.succ.inj hlen)
      rw [bitStream_cons, bitStream_cons, List.zipWith_append (by rfl), ← bitsOf_xor, ← htail]
      rfl

theorem zeros8_xor : List.zipWith xor zeros8 zeros8 = zeros8 := rfl

/-- CRC8 of a sum is the sum of the checksums: the flush bits are the sum of themselves. -/
theorem crc8_xorBytes {a b : Bytes} (hlen : a.length = b.length) :
    crc8 (xorBytes a b) = crc8 a ^^^ crc8 b := by
  have hbits : (bitStream a).length = (bitStream b).length := by
    rw [length_bitStream, length_bitStream, hlen]
  have hinput : bitStream (xorBytes a b) ++ zeros8 =
      List.zipWith xor (bitStream a ++ zeros8) (bitStream b ++ zeros8) := by
    rw [bitStream_xorBytes hlen, List.zipWith_append hbits, zeros8_xor]
  refine BitVec.eq_of_toNat_eq ?_
  rw [BitVec.toNat_xor, crc8_toNat_eq_run8, crc8_toNat_eq_run8, crc8_toNat_eq_run8, hinput]
  exact run8_xor (d := 0) (e := 0) (by simp [hbits]) (by decide) (by decide)

/-! ### CRC8 a byte at a time (R116) -/

/-- Eight bits fill the dividend, and none of them reaches bit 8. -/
theorem run8_zero_bitsOf (b : Byte) : run8 0 (bitsOf b) = b.toNat := by
  revert b
  decide +kernel

theorem crc8_singleton_toNat (b : Byte) : (crc8 [b]).toNat = run8 b.toNat zeros8 := by
  rw [crc8_toNat_eq_run8, bitStream_cons, List.append_assoc, run8_append, run8_zero_bitsOf]
  rfl

theorem zipWith_xor_zeros8 (b : Byte) : List.zipWith xor zeros8 (bitsOf b) = bitsOf b := by
  simp [zeros8, bitsOf, List.replicate_succ, Config.flush]

/-- Taking in a byte is adding it to the dividend that eight zero bits would give. -/
theorem run8_bitsOf {d : Nat} (hd : d < 256) (b : Byte) : run8 d (bitsOf b) = run8 d zeros8 ^^^ b.toNat := by
  have hsum := run8_xor (as := zeros8) (bs := bitsOf b) rfl hd (e := 0) (by decide)
  rwa [Nat.xor_zero, zipWith_xor_zeros8, run8_zero_bitsOf] at hsum

theorem crc8_concat (m : Bytes) (b : Byte) : crc8 (m ++ [b]) = crc8 [crc8 m ^^^ b] := by
  have hstream : bitStream (m ++ [b]) = bitStream m ++ bitsOf b := by simp [bitStream]
  refine BitVec.eq_of_toNat_eq ?_
  rw [crc8_singleton_toNat, BitVec.toNat_xor, crc8_toNat_eq_run8, crc8_toNat_eq_run8, hstream, run8_append,
    run8_append, run8_bitsOf (run8_lt (by decide) _), ← run8_append]

/-- Settles O8: linearity, then leading zeros, then the step by a byte, which linearity gives. -/
theorem crc8IsLinearAndBytewise : Obligations.Crc8IsLinearAndBytewise :=
  ⟨fun _ _ => crc8_xorBytes, Hazards.crc8_zero_cons, crc8_concat⟩

/-! ### CRC8 of one byte (R112) -/

theorem crc8_singleton_injective : Function.Injective fun b : Byte => crc8 [b] := by
  intro b c h
  have hrun := congrArg BitVec.toNat h
  simp only [crc8_singleton_toNat] at hrun
  exact BitVec.eq_of_toNat_eq (crcRun_left_inj (deg := Config.deg) (by decide) (by decide) (by decide)
    b.isLt c.isLt hrun)

/-- Settles O2: the values are evaluated; the eight zero bits behind a single byte lose nothing, and an
injection of the bytes into themselves is a bijection. -/
theorem crc8IsTheStationsChecksum : Obligations.Crc8IsTheStationsChecksum :=
  ⟨fun _ => rfl, by decide +kernel, by decide +kernel, Finite.injective_iff_bijective.1 crc8_singleton_injective,
    by decide +kernel, by decide +kernel, by decide +kernel, by decide +kernel⟩

end Sys2Proof.Polynomial

/-! PROOFS. EXTRACT against the grammar and the pseudocode (41_framer.md R135 to R137, 30_encoding.md R83).

A scan that runs out keeps what it had, or what follows the last unescaped START it met; a scan that
completes without meeting one adds bytes to what it had decoded, whatever that was. -/

namespace Sys2Proof.Scan

open Sys2Proof.Machine Sys2Proof.Safety Sys2Proof.Framer

/-! ### ENCODE emits the wire grammar (R83) -/

theorem isItemsEnd_stuffByte_append (b : Byte) {bs : Bytes} (h : isItemsEnd bs = true) :
    isItemsEnd (stuffByte b ++ bs) = true := by
  cases hb : needsEscape b with
  | true => simpa [stuffByte, hb, isItemsEnd] using h
  | false =>
    have hesc : b ≠ Config.escByte := by rintro rfl; cases hb
    cases bs with
    | nil => cases h
    | cons c bs => simpa [stuffByte, hb, isItemsEnd, hesc] using h

theorem isItemsEnd_flatMap_stuffByte (bs : Bytes) :
    isItemsEnd (bs.flatMap stuffByte ++ [Config.endByte]) = true := by
  induction bs with
  | nil => rfl
  | cons b bs ih =>
    rw [List.flatMap_cons, List.append_assoc]
    exact isItemsEnd_stuffByte_append b ih

theorem isWireFrame_frameOf (m p : Bytes) : isWireFrame (frameOf m p) = true := by
  simp only [isWireFrame, frameOf, isItemsEnd_flatMap_stuffByte, beq_self_eq_true, Bool.and_self]

/-- Settles O11: each stuffed byte is one item. -/
theorem encodeFollowsTheWireGrammar : Obligations.EncodeFollowsTheWireGrammar := isWireFrame_frameOf

/-! ### EXTRACT by index (R135) -/

theorem fromStart_eq_drop_findIdx (acc : Bytes) :
    fromStart acc = acc.drop (acc.findIdx (· == Config.startByte)) := by
  induction acc with
  | nil => rfl
  | cons b acc ih =>
    by_cases hb : b = Config.startByte
    · simp [fromStart, List.findIdx_cons, hb]
    · have hne : (b == Config.startByte) = false := beq_eq_false_iff_ne.2 hb
      simpa [fromStart, List.findIdx_cons, hne, bne] using ih

/-- The loop with its index is the scan of what stands behind the index. -/
theorem extractLoop_eq_scanFrame {n : Nat} {acc out : Bytes} {j : Nat} (hfuel : acc.length < n + j) :
    extractLoop n acc out j = scanFrame acc out false (acc.drop j) := by
  induction n generalizing acc out j with
  | zero => rw [List.drop_eq_nil_of_le (by omega)]; rfl
  | succ n ih =>
    rw [extractLoop]
    by_cases hj : j < acc.length
    · have hget : acc.getD j 0#8 = acc[j] := by simp [hj]
      have hdrop : acc.drop j = acc[j] :: acc.drop (j + 1) := List.drop_eq_getElem_cons hj
      simp only [hj, if_true, hget]
      obtain hb | hb | hb | hb := byte_cases acc[j]
      · rw [if_pos hb, hdrop, hb, scanFrame_esc]
        by_cases hnext : j + 1 < acc.length
        · have hget' : acc.getD (j + 1) 0#8 = acc[j + 1] := by simp [hnext]
          rw [if_pos hnext, hget', ih (by omega), List.drop_eq_getElem_cons hnext, scanFrame_escaped]
        · rw [if_neg hnext, List.drop_eq_nil_of_le (Nat.le_of_not_lt hnext), scanFrame_nil]
      · rw [hdrop, hb, scanFrame_end]
        rfl
      · have hlen : (acc.drop j).length < n + 1 := by rw [List.length_drop]; omega
        have hrestart := ih (out := []) hlen
        rw [List.drop_drop, hdrop, hb] at hrestart
        rw [hdrop, hb, scanFrame_start, ← hrestart]
        rfl
      · have hreserved : acc[j] ≠ Config.escByte ∧ acc[j] ≠ Config.endByte ∧ acc[j] ≠ Config.startByte := by
          refine ⟨?_, ?_, ?_⟩ <;> intro h <;> rw [h] at hb <;> cases hb
        obtain ⟨hesc, hend, hstart⟩ := hreserved
        rw [if_neg hesc, if_neg hend, if_neg hstart, ih (by omega), hdrop, scanFrame_lit _ _ _ hb]
    · rw [if_neg hj, List.drop_eq_nil_of_le (Nat.le_of_not_lt hj), scanFrame_nil]

theorem extractIndexed_eq_extractFrom (acc : Bytes) : extractIndexed acc = extractFrom acc := by
  simp only [extractIndexed, extractFrom, ← fromStart_eq_drop_findIdx]
  cases fromStart acc with
  | nil => rfl
  | cons b rest => exact extractLoop_eq_scanFrame (Nat.lt_succ_of_lt (Nat.lt_succ_self _))

/-- Settles O12: the loop with its index is EXTRACT's scan. -/
theorem extractFollowsThePseudocode : Obligations.ExtractFollowsThePseudocode := by
  refine ⟨fun s hpend => ?_, fun s f hpend => ?_⟩
  · rw [extractIndexed_eq_extractFrom]
    exact execExtract_next_iff.2 ⟨hpend, rfl⟩
  · exact require_false (by simp [hpend])

/-! ### What a scan that runs out keeps (R137) -/

theorem restarts_lit {b : Byte} (h : needsEscape b = false) (bs : Bytes) :
    restarts false (b :: bs) = restarts false bs := by
  simp only [needsEscape, Bool.or_eq_false_iff] at h
  obtain ⟨⟨hstart, hend⟩, hesc⟩ := h
  simp [restarts, hstart, hend, hesc]

/-- A scan that restarts is EXTRACT on what begins with that START. -/
theorem exists_suffix_of_restarts {bs : Bytes} {esc : Bool} (h : restarts esc bs = true) (kept out : Bytes) :
    ∃ pre rest, bs = pre ++ Config.startByte :: rest ∧
      scanFrame kept out esc bs = extractFrom (Config.startByte :: rest) := by
  induction bs generalizing out esc with
  | nil => cases h
  | cons b bs ih =>
    have hskip {esc' : Bool} {out' : Bytes} (h' : restarts esc' bs = true)
        (hscan : scanFrame kept out esc (b :: bs) = scanFrame kept out' esc' bs) :
        ∃ pre rest, b :: bs = pre ++ Config.startByte :: rest ∧
          scanFrame kept out esc (b :: bs) = extractFrom (Config.startByte :: rest) := by
      obtain ⟨pre, rest, hbs, heq⟩ := ih h' out'
      exact ⟨b :: pre, rest, by rw [hbs, List.cons_append], hscan.trans heq⟩
    cases esc with
    | true => exact hskip (esc' := false) h (scanFrame_escaped _ _ _ _)
    | false =>
      obtain rfl | rfl | rfl | hlit := byte_cases b
      · exact hskip (esc' := true) h (scanFrame_esc _ _ _)
      · cases h
      · exact ⟨[], bs, rfl, by rw [scanFrame_start, extractFrom_start]⟩
      · rw [restarts_lit hlit] at h
        exact hskip h (scanFrame_lit _ _ _ hlit)

/-- A scan that neither restarts nor completes keeps everything. -/
theorem scanFrame_kept_of_not_restarts {kept out bs k : Bytes} {esc : Bool} (h : restarts esc bs = false)
    (hnone : scanFrame kept out esc bs = (k, none)) : k = kept := by
  induction bs generalizing out esc with
  | nil => cases hnone; rfl
  | cons b bs ih =>
    cases esc with
    | true => exact ih h (scanFrame_escaped _ _ _ _ ▸ hnone)
    | false =>
      obtain rfl | rfl | rfl | hlit := byte_cases b
      · exact ih (esc := true) h (scanFrame_esc _ _ _ ▸ hnone)
      · rw [scanFrame_end] at hnone; cases hnone
      · cases h
      · rw [restarts_lit hlit] at h
        exact ih h (scanFrame_lit _ _ _ hlit ▸ hnone)

/-- EXTRACT that returns none keeps a suffix that is empty or begins with a START, by induction on the
length: the bytes before it are junk or a frame that a START broke off. -/
theorem extractFrom_none_suffix {acc k : Bytes} (h : extractFrom acc = (k, none)) :
    k <:+ acc ∧ (k = [] ∨ k.head? = some Config.startByte) := by
  induction hn : acc.length using Nat.strong_induction_on generalizing acc with
  | _ n ih =>
    cases acc with
    | nil => cases h; exact ⟨List.suffix_rfl, .inl rfl⟩
    | cons b acc =>
      by_cases hb : b = Config.startByte
      · subst hb
        rw [extractFrom_start] at h
        cases hrestarts : restarts false acc with
        | false =>
          obtain rfl := scanFrame_kept_of_not_restarts hrestarts h
          exact ⟨List.suffix_rfl, .inr rfl⟩
        | true =>
          obtain ⟨pre, rest, rfl, hscan⟩ :=
            exists_suffix_of_restarts hrestarts (Config.startByte :: acc) []
          rw [hscan] at h
          obtain ⟨hsuffix, hhead⟩ := ih _ (by simp [← hn]) h rfl
          exact ⟨hsuffix.trans ⟨Config.startByte :: pre, rfl⟩, hhead⟩
      · rw [extractFrom_cons_of_ne hb] at h
        obtain ⟨hsuffix, hhead⟩ := ih _ (by simp [← hn]) h rfl
        exact ⟨hsuffix.trans (List.suffix_cons b acc), hhead⟩

theorem extractFrom_kept_of_not_restarts {bs k : Bytes} (h : restarts false bs = false)
    (hnone : extractFrom (Config.startByte :: bs) = (k, none)) : k = Config.startByte :: bs :=
  scanFrame_kept_of_not_restarts h (extractFrom_start bs ▸ hnone)

/-- Settles O15: the three facts are of EXTRACT's own function. -/
theorem incompleteFrameIsKept : Obligations.IncompleteFrameIsKept := by
  intro s t h hnone
  obtain ⟨-, rfl⟩ := execExtract_next_iff.1 h
  have hextract : extractFrom s.rxacc = ((extractFrom s.rxacc).1, none) := Prod.ext rfl hnone
  obtain ⟨hsuffix, hhead⟩ := extractFrom_none_suffix hextract
  refine ⟨hsuffix, hhead, fun hstart hrestarts => ?_⟩
  obtain ⟨bs, hacc⟩ := List.head?_eq_some_iff.1 hstart
  rw [hacc, List.drop_one, List.tail_cons] at hrestarts
  change (extractFrom s.rxacc).1 = s.rxacc
  rw [hacc] at hextract ⊢
  exact extractFrom_kept_of_not_restarts hrestarts hextract

/-! ### When EXTRACT discards bytes (R200 (b)) -/

/-- A scan that completes without a restart adds the same bytes to whatever was decoded before. -/
theorem scanFrame_some_of_not_restarts {kept out bs r g : Bytes} {esc : Bool} (h : restarts esc bs = false)
    (hsome : scanFrame kept out esc bs = (r, some g)) :
    ∃ d, g = out ++ d ∧ ∀ kept' out', scanFrame kept' out' esc bs = (r, some (out' ++ d)) := by
  induction bs generalizing out esc with
  | nil => cases hsome
  | cons b bs ih =>
    have hpush {x : Byte} (hx : restarts false bs = false)
        (hscan : ∀ kept' out', scanFrame kept' out' esc (b :: bs) = scanFrame kept' (out' ++ [x]) false bs) :
        ∃ d, g = out ++ d ∧ ∀ kept' out', scanFrame kept' out' esc (b :: bs) = (r, some (out' ++ d)) := by
      obtain ⟨d, hg, hd⟩ := ih hx (hscan kept out ▸ hsome)
      exact ⟨x :: d, by simp [hg], fun kept' out' => by simp [hscan, hd]⟩
    cases esc with
    | true => exact hpush h fun _ _ => scanFrame_escaped _ _ _ _
    | false =>
      obtain rfl | rfl | rfl | hlit := byte_cases b
      · simp only [scanFrame_esc] at hsome ⊢
        exact ih (esc := true) h hsome
      · rw [scanFrame_end] at hsome
        cases hsome
        exact ⟨[], by simp, fun _ out' => by simp [scanFrame_end]⟩
      · cases h
      · rw [restarts_lit hlit] at h
        exact hpush h fun _ _ => scanFrame_lit _ _ _ hlit

/-- A completed frame costs at least its END. -/
theorem length_lt_of_scanFrame_some {kept out bs r f : Bytes} {esc : Bool}
    (h : scanFrame kept out esc bs = (r, some f)) : r.length < bs.length := by
  induction bs generalizing kept out esc with
  | nil => cases h
  | cons b bs ih =>
    cases esc with
    | true => exact Nat.lt_succ_of_lt (ih (scanFrame_escaped _ _ _ _ ▸ h))
    | false =>
      obtain rfl | rfl | rfl | hlit := byte_cases b
      · exact Nat.lt_succ_of_lt (ih (scanFrame_esc _ _ _ ▸ h))
      · rw [scanFrame_end] at h
        cases h
        exact Nat.lt_succ_self _
      · exact Nat.lt_succ_of_lt (ih (scanFrame_start _ _ _ ▸ h))
      · exact Nat.lt_succ_of_lt (ih (scanFrame_lit _ _ _ hlit ▸ h))

theorem length_lt_of_extractFrom_some {acc r f : Bytes} (h : extractFrom acc = (r, some f)) :
    r.length < acc.length := by
  induction acc with
  | nil => cases h
  | cons b acc ih =>
    by_cases hb : b = Config.startByte
    · rw [hb, extractFrom_start] at h
      exact Nat.lt_succ_of_lt (length_lt_of_scanFrame_some h)
    · exact Nat.lt_succ_of_lt (ih (extractFrom_cons_of_ne hb acc ▸ h))

/-- Where a scan completes without a restart, a frame extracted with the same END from further on is
shorter: its START stands behind an ESC, and the scan has decoded it as a byte of its own frame. -/
theorem length_lt_of_extractFrom_suffix {kept out bs r f g rest : Bytes} {esc : Bool}
    (h : restarts esc bs = false) (hscan : scanFrame kept out esc bs = (r, some g)) (hsuffix : rest <:+ bs)
    (hrest : extractFrom rest = (r, some f)) : f.length < g.length := by
  induction bs generalizing out esc rest with
  | nil => cases hscan
  | cons b bs ih =>
    by_cases hhead : rest = b :: bs ∧ b = Config.startByte
    · obtain ⟨rfl, rfl⟩ := hhead
      cases esc with
      | false => cases h
      | true =>
        rw [scanFrame_escaped] at hscan
        obtain ⟨d, rfl, hd⟩ := scanFrame_some_of_not_restarts (esc := false) h hscan
        rw [extractFrom_start, hd] at hrest
        obtain rfl : d = f := by simpa using hrest
        simp only [List.length_append, List.length_singleton]
        omega
    · obtain ⟨rest', hsuffix', hrest'⟩ : ∃ rest', rest' <:+ bs ∧ extractFrom rest' = (r, some f) := by
        obtain rfl | hsuffix := List.suffix_cons_iff.1 hsuffix
        · have hb : b ≠ Config.startByte := fun hb => hhead ⟨rfl, hb⟩
          exact ⟨bs, List.suffix_rfl, extractFrom_cons_of_ne hb bs ▸ hrest⟩
        · exact ⟨rest, hsuffix, hrest⟩
      cases esc with
      | true => exact ih (esc := false) h (scanFrame_escaped _ _ _ _ ▸ hscan) hsuffix' hrest'
      | false =>
        obtain rfl | rfl | rfl | hlit := byte_cases b
        · exact ih (esc := true) h (scanFrame_esc _ _ _ ▸ hscan) hsuffix' hrest'
        · rw [scanFrame_end] at hscan
          cases hscan
          exact absurd (length_lt_of_extractFrom_some hrest') (Nat.not_lt.2 hsuffix'.length_le)
        · cases h
        · rw [restarts_lit hlit] at h
          exact ih h (scanFrame_lit _ _ _ hlit ▸ hscan) hsuffix' hrest'

/-- EXTRACT discards bytes: junk before the first START, or a frame that a START breaks off (R200 (b)). -/
def Discards (acc : Bytes) : Prop :=
  (fromStart acc).length < acc.length ∨ restarts false ((fromStart acc).drop 1) = true

theorem discards_cons_of_ne {b : Byte} (hb : b ≠ Config.startByte) (acc : Bytes) : Discards (b :: acc) := by
  have hfrom : fromStart (b :: acc) = fromStart acc := by simp [fromStart, hb]
  have hle : (fromStart acc).length ≤ acc.length := (List.dropWhile_sublist _).length_le
  rw [Discards, hfrom]
  exact .inl (Nat.lt_succ_of_le hle)

theorem discards_start_iff (bs : Bytes) :
    Discards (Config.startByte :: bs) ↔ restarts false bs = true := by
  have hfrom : fromStart (Config.startByte :: bs) = Config.startByte :: bs := by simp [fromStart]
  simp [Discards, hfrom]

/-- With no frame, bytes were discarded exactly when the accumulator changed. -/
theorem discards_iff_of_none {acc k : Bytes} (h : extractFrom acc = (k, none)) :
    Discards acc ↔ k ≠ acc := by
  cases acc with
  | nil => cases h; simp [Discards, fromStart, restarts]
  | cons b acc =>
    by_cases hb : b = Config.startByte
    · subst hb
      rw [discards_start_iff]
      cases hrestarts : restarts false acc with
      | false => simp [extractFrom_kept_of_not_restarts hrestarts h]
      | true =>
        obtain ⟨pre, rest, hacc, hscan⟩ :=
          exists_suffix_of_restarts hrestarts (Config.startByte :: acc) []
        rw [extractFrom_start, hscan] at h
        have hle := (extractFrom_none_suffix h).1.length_le
        have hlen := congrArg List.length hacc
        simp only [List.length_append, List.length_cons] at hle hlen
        simp only [true_iff]
        rintro rfl
        simp only [List.length_cons] at hle
        omega
    · have hle := (extractFrom_none_suffix (extractFrom_cons_of_ne hb acc ▸ h)).1.length_le
      simp only [discards_cons_of_ne hb, true_iff]
      rintro rfl
      exact Nat.not_succ_le_self _ hle

/-- With a frame, bytes were discarded exactly when EXTRACT gives the same without some bytes at the
head. -/
theorem discards_iff_of_some {acc r f : Bytes} (h : extractFrom acc = (r, some f)) :
    Discards acc ↔ ∃ pre rest, pre ≠ [] ∧ acc = pre ++ rest ∧ extractFrom rest = (r, some f) := by
  cases acc with
  | nil => cases h
  | cons b acc =>
    by_cases hb : b = Config.startByte
    · subst hb
      rw [discards_start_iff]
      rw [extractFrom_start] at h
      constructor
      · intro hrestarts
        obtain ⟨pre, rest, hacc, hscan⟩ :=
          exists_suffix_of_restarts hrestarts (Config.startByte :: acc) []
        exact ⟨Config.startByte :: pre, _, by simp, by rw [hacc, List.cons_append], hscan ▸ h⟩
      · rintro ⟨pre, rest, hpre, hacc, hrest⟩
        obtain ⟨p, pre, rfl⟩ := List.exists_cons_of_ne_nil hpre
        have hsuffix : rest <:+ acc := ⟨pre, (List.cons.inj hacc).2.symm⟩
        by_contra hrestarts
        exact absurd (length_lt_of_extractFrom_suffix (Bool.eq_false_iff.2 hrestarts) h hsuffix hrest)
          (Nat.lt_irrefl _)
    · simp only [discards_cons_of_ne hb, true_iff]
      exact ⟨[b], acc, by simp, rfl, extractFrom_cons_of_ne hb acc ▸ h⟩

end Sys2Proof.Scan

/-! PROOFS. What a completing instruction can do, said once (30_encoding.md R100; log entries 7 to 9).

`Moves` lists the next states with the guard of each; every rule about one instruction that completes is
then a case split over it. -/

namespace Sys2Proof.Transition

open Sys2Proof.Machine Sys2Proof.Safety

/-! ### Frames and control frames by their bytes -/

/-- A frame in the case "control" has bit 4 of its byte 0 set (R184). -/
theorem rxCase_eq_control_iff {r : Bit} {f : Bytes} :
    rxCase r f = .control ↔ ∃ c g, f = c :: g ∧ isControl c = true := by
  cases f with
  | nil => simp [rxCase]
  | cons c g =>
    cases hc : isControl c with
    | true => simp [rxCase, hc]
    | false =>
      match g with
      | [] | [_] => simp [rxCase, hc]
      | q :: k :: p =>
        rw [ArqReceive.rxCase_data hc]
        split_ifs <;> simp [hc]

/-- Only the data frame with the sequence byte of `receiverSeq` and the checksum of its payload is
accepted (R189). -/
theorem rxCase_eq_accept_iff {r : Bit} {f : Bytes} :
    rxCase r f = .accept ↔ ∃ c p, f = c :: zext8 r :: crc8 p :: p ∧ isControl c = false := by
  constructor
  · intro h
    match f with
    | [] => cases h
    | c :: g =>
      cases hc : isControl c with
      | true => simp [rxCase, hc] at h
      | false =>
        match g with
        | [] | [_] => simp [rxCase, hc] at h
        | q :: k :: p =>
          rw [ArqReceive.rxCase_data hc] at h
          split_ifs at h with hsum hseq
          exact ⟨c, p, by rw [hseq, not_not.1 hsum], hc⟩
  · rintro ⟨c, p, rfl, hc⟩
    simp [ArqReceive.rxCase_data hc]

/-- The decoded bytes of the ACK of a counter (R82, R164). -/
def ackBytes (q : Bit) : Bytes := [0x11#8, zext8 q, crc8 [0x11#8, zext8 q]]

/-- The only acknowledging content of the slot is the well-formed ACK of the counter (R164). -/
theorem acknowledges_iff {c : Bytes} {q : Bit} :
    acknowledges c q = true ↔ c = ackBytes q := by
  constructor
  · intro h
    simp only [acknowledges, Bool.and_eq_true, beq_iff_eq] at h
    obtain ⟨hclass, hseq⟩ := h
    match c with
    | [] | [_] | [_, _] | _ :: _ :: _ :: _ :: _ => cases hclass
    | [a, b, k] =>
      obtain rfl : b = zext8 q := by simpa [sequenceByte, seqMatches] using hseq
      rw [ArqSend.ctlClass_three] at hclass
      split_ifs at hclass with hsum hack
      rw [hack] at hsum ⊢
      rw [not_not.1 hsum, ackBytes]
  · rintro rfl
    simp [acknowledges, ackBytes, ArqSend.ctlClass_three, sequenceByte, seqMatches]

/-! ### The groups of instructions that share a meaning -/

/-- The functions of R100: a value is returned and nothing else happens. -/
def returnsValue : Instr → Bool
  | .crc8 _ | .crc7 _ | .crc _ _ _ _ | .encodeFrame _ _ | .chunk _ | .mkdata _ _ | .mkctl _ _
  | .ctlclass _ => true
  | _ => false

/-- RXFRAME, or the row DATA, which is one for its control byte (log entry 8). -/
def processesFrame : Instr → Bool
  | .rxframe | .cbData _ => true
  | _ => false

/-- What a consumer of the slot asks of its control byte. -/
def slotTest : Instr → Option Byte → Bool
  | .cbAck => (· == some Config.ctrlAck)
  | .cbNak => (· == some Config.ctrlNak)
  | .cbCtlrsv c => (· == some c)
  | _ => fun _ => true

theorem exec_of_returnsValue {i : Instr} (h : returnsValue i = true) (s : State) :
    ∃ v, exec i s = .next (returnValue v s) := by
  cases i with
  | crc8 | crc7 | crc | encodeFrame | chunk | mkdata | mkctl | ctlclass => exact ⟨_, rfl⟩
  | _ => cases h

theorem exec_of_consumesSlot {i : Instr} (h : consumesSlot i = true) (s : State) :
    exec i s = ackwaitWhen (slotTest i) s := by
  cases i with
  | ackwait | cbAck | cbNak | cbCtlrsv => rfl
  | _ => cases h

theorem exec_of_lineInBytes {i : Instr} {b : Bytes} (h : lineInBytes i = some b) (s : State) :
    exec i s = appendRx b s := by
  cases i with
  | rxbytes | wbStart | wbEnd | wbEsc | wbLit | frameNak0 | frameNak1 | frameAck0 | frameAck1 =>
    cases h
    rfl
  | _ => cases h

theorem processFrame_of_exec {i : Instr} {s t : State} (hi : processesFrame i = true)
    (h : exec i s = .next t) : ∃ f, s.rxpend = some f ∧ processFrame f s = .next t := by
  cases i with
  | rxframe => exact execRxframe_next_iff.1 h
  | cbData c =>
    obtain ⟨f, hpend, -, -, hframe⟩ := execCbData_next_iff.1 h
    exact ⟨f, hpend, hframe⟩
  | _ => cases hi

/-- Every instruction is in one of the groups or is one of the five operations with a meaning of their
own. -/
theorem instr_groups (i : Instr) :
    i = .reset ∨ (∃ p, i = .send p) ∨ i = .txdata ∨ i = .timeout ∨ i = .extract ∨ consumesSlot i = true ∨
      processesFrame i = true ∨ (∃ b, lineInBytes i = some b) ∨ returnsValue i = true := by
  cases i <;> simp [consumesSlot, processesFrame, lineInBytes, returnsValue]

/-! ### The moves -/

/-- The state TXDATA leads to (R162). -/
def chunkSent (s : State) : State :=
  transmit (mkdata s.senderSeq (takeChunk s.sendq).1)
    { s with sendq := (takeChunk s.sendq).2.1, sqValid := (takeChunk s.sendq).2.2,
             txhold := mkdata s.senderSeq (takeChunk s.sendq).1, arq := .awaitingAck }

/-- The state EXTRACT leads to (R135). -/
def extracted (s : State) : State :=
  returnValue (.frame (extractFrom s.rxacc).2)
    { s with rxacc := (extractFrom s.rxacc).1, rxpend := (extractFrom s.rxacc).2 }

/-- The next states of the instructions, each with the guard under which it is reached. -/
inductive Moves : Instr → State → State → Prop
  /-- R230 -/
  | reset {s : State} : Moves .reset s (resetStation s)
  /-- R152 -/
  | load {s : State} {p : Bytes} (hbusy : busy s = false) :
      Moves (.send p) s { s with sendq := p, sqValid := true }
  /-- R162 -/
  | chunk {s : State} (hvalid : s.sqValid = true) (hidle : s.arq = .idle) : Moves .txdata s (chunkSent s)
  /-- R164, the matching ACK -/
  | acknowledge {i : Instr} {s : State} (hi : consumesSlot i = true) (hwait : s.arq = .awaitingAck)
      (hfull : s.pcfFull = true) (hack : s.pcf = ackBytes s.senderSeq) :
      Moves i s (acknowledged (emptySlot s))
  /-- R164, R165, any other control frame -/
  | retransmit {i : Instr} {s : State} (hi : consumesSlot i = true) (hwait : s.arq = .awaitingAck)
      (hfull : s.pcfFull = true) (hack : s.pcf ≠ ackBytes s.senderSeq) :
      Moves i s (transmit s.txhold (emptySlot s))
  /-- R166 -/
  | expire {s : State} (hwait : s.arq = .awaitingAck) (htimer : s.params.hasTimeout = true) :
      Moves .timeout s (transmit s.txhold s)
  /-- R180 -/
  | arrive {i : Instr} {s : State} {b : Bytes} (hi : lineInBytes i = some b) :
      Moves i s { s with rxacc := s.rxacc ++ b }
  /-- R135 -/
  | extract {s : State} (hpend : s.rxpend = none) : Moves .extract s (extracted s)
  /-- R183 -/
  | discard {i : Instr} {s : State} (hi : processesFrame i = true) (hpend : s.rxpend = some []) :
      Moves i s (clearPend s)
  /-- R184 -/
  | store {i : Instr} {s : State} {c : Byte} {g : Bytes} (hi : processesFrame i = true)
      (hpend : s.rxpend = some (c :: g)) (hcontrol : isControl c = true) (hempty : s.pcfFull = false) :
      Moves i s (fillSlot (c :: g) (clearPend s))
  /-- R185, R187 -/
  | reject {i : Instr} {s : State} {f : Bytes} (hi : processesFrame i = true) (hpend : s.rxpend = some f)
      (hcase : rxCase s.receiverSeq f = .runt ∨ rxCase s.receiverSeq f = .mismatch) :
      Moves i s (transmit (mkctl Config.ctrlNak (zext8 s.receiverSeq)) (clearPend s))
  /-- R188 -/
  | reacknowledge {i : Instr} {s : State} {f : Bytes} (hi : processesFrame i = true)
      (hpend : s.rxpend = some f) (hcase : rxCase s.receiverSeq f = .duplicate) :
      Moves i s (transmit (mkctl Config.ctrlAck (zext8 (complement s.receiverSeq))) (clearPend s))
  /-- R189 -/
  | accept {i : Instr} {s : State} {c : Byte} {p : Bytes} (hi : processesFrame i = true)
      (hpend : s.rxpend = some (c :: zext8 s.receiverSeq :: crc8 p :: p)) (hdata : isControl c = false) :
      Moves i s (toggleReceiver (transmit (mkctl Config.ctrlAck (zext8 s.receiverSeq))
        (deliver p (clearPend s))))
  /-- R100, the functions -/
  | value {i : Instr} {s : State} {v : Value} (hi : returnsValue i = true) : Moves i s (returnValue v s)

theorem rxCase_eq_empty_iff {r : Bit} {f : Bytes} : rxCase r f = .empty ↔ f = [] := by
  cases f with
  | nil => simp [rxCase]
  | cons c g =>
    cases hc : isControl c with
    | true => simp [rxCase, hc]
    | false =>
      match g with
      | [] | [_] => simp [rxCase, hc]
      | q :: k :: p =>
        rw [ArqReceive.rxCase_data hc]
        split_ifs <;> simp

theorem moves_of_processFrame {i : Instr} {s t : State} {f : Bytes} (hi : processesFrame i = true)
    (hpend : s.rxpend = some f) (h : processFrame f s = .next t) : Moves i s t := by
  obtain ⟨hcase, rfl⟩ | ⟨hcase, hempty, rfl⟩ | ⟨hcase, rfl⟩ | ⟨hcase, rfl⟩ | ⟨hcase, rfl⟩ :=
    processFrame_next_iff.1 h
  · exact .discard hi (rxCase_eq_empty_iff.1 hcase ▸ hpend)
  · obtain ⟨c, g, rfl, hcontrol⟩ := rxCase_eq_control_iff.1 hcase
    exact .store hi hpend hcontrol hempty
  · exact .reject hi hpend hcase
  · exact .reacknowledge hi hpend hcase
  · obtain ⟨c, p, rfl, hdata⟩ := rxCase_eq_accept_iff.1 hcase
    exact .accept hi hpend hdata

theorem moves_of_ackwaitWhen {i : Instr} {s t : State} {ok : Option Byte → Bool}
    (hi : consumesSlot i = true) (h : ackwaitWhen ok s = .next t) : Moves i s t := by
  obtain ⟨hwait, hfull, -, rfl⟩ := ackwaitWhen_next_iff.1 h
  rw [awaiting_iff] at hwait
  obtain ⟨hack, heq⟩ | ⟨hack, heq⟩ := consumeSlot_cases s <;> rw [heq]
  · exact .acknowledge hi hwait hfull (acknowledges_iff.1 hack)
  · refine .retransmit hi hwait hfull fun hpcf => ?_
    rw [acknowledges_iff.2 hpcf] at hack
    cases hack

/-- An instruction that completes makes one of the moves. -/
theorem moves_of_exec {i : Instr} {s t : State} (h : exec i s = .next t) : Moves i s t := by
  obtain rfl | ⟨p, rfl⟩ | rfl | rfl | rfl | hi | hi | ⟨b, hi⟩ | hi := instr_groups i
  · cases execReset_next_iff.1 h
    exact .reset
  · obtain ⟨hbusy, -, rfl⟩ := execSend_next_iff.1 h
    exact .load hbusy
  · obtain ⟨hvalid, hidle, rfl⟩ := execTxdata_next_iff.1 h
    exact .chunk hvalid (awaiting_eq_false_iff.1 hidle)
  · obtain ⟨hwait, htimer, rfl⟩ := execTimeout_next_iff.1 h
    exact .expire (awaiting_iff.1 hwait) htimer
  · obtain ⟨hpend, rfl⟩ := execExtract_next_iff.1 h
    exact .extract hpend
  · rw [exec_of_consumesSlot hi] at h
    exact moves_of_ackwaitWhen hi h
  · obtain ⟨f, hpend, hframe⟩ := processFrame_of_exec hi h
    exact moves_of_processFrame hi hpend hframe
  · rw [exec_of_lineInBytes hi] at h
    obtain ⟨-, rfl⟩ := appendRx_next_iff.1 h
    exact .arrive hi
  · obtain ⟨v, hv⟩ := exec_of_returnsValue hi s
    cases hv.symm.trans h
    exact .value hi

end Sys2Proof.Transition

/-! PROOFS. When an instruction is held and when it faults (30_encoding.md R100, 60_exceptions.md R215).

Every meaning but two is guarded by its enabling condition: true, it completes; false, it is held. An
arrival and a SEND may also fault. -/

namespace Sys2Proof.Guards

open Sys2Proof.Machine Sys2Proof.Safety Sys2Proof.Transition

/-! ### Guarded results -/

/-- The result is a next state where the condition is true, and a hold where it is false. -/
def Guarded (c : Bool) (k : Result) : Prop :=
  (c = true ∧ ∃ t, k = .next t) ∨ (c = false ∧ ∃ h, k = .refused (.held h))

theorem guarded_next (t : State) : Guarded true (.next t) := .inl ⟨rfl, t, rfl⟩

theorem guarded_held (h : Hold) : Guarded false (.refused (.held h)) := .inr ⟨rfl, h, rfl⟩

theorem guarded_require {c d : Bool} {k : Result} (h : Hold) (hk : Guarded d k) :
    Guarded (c && d) (require c h k) := by
  cases c with
  | true => exact hk
  | false => exact guarded_held h

theorem guarded_require_next (c : Bool) (h : Hold) (t : State) : Guarded c (require c h (.next t)) := by
  have hand := guarded_require (c := c) h (guarded_next t)
  rwa [Bool.and_true] at hand

theorem guarded_ackwaitWhen (ok : Option Byte → Bool) (s : State) :
    Guarded (awaiting s && (s.pcfFull && ok (slotControlByte s))) (ackwaitWhen ok s) :=
  guarded_require _ (guarded_require _ (guarded_require_next _ _ _))

/-- Only a control frame can be held, by a full slot (R184). -/
theorem guarded_processFrame (f : Bytes) (s : State) :
    Guarded (!(rxCase s.receiverSeq f == .control && s.pcfFull)) (processFrame f s) := by
  cases hcase : rxCase s.receiverSeq f with
  | control =>
    simp only [processFrame, hcase]
    exact guarded_require_next _ _ _
  | empty | runt | mismatch | duplicate | accept =>
    simp only [processFrame, hcase]
    exact guarded_next _

/-! ### The enabling conditions of the groups -/

theorem enabled_of_consumesSlot {i : Instr} (h : consumesSlot i = true) (s : State) :
    enabled i s = (awaiting s && (s.pcfFull && slotTest i (slotControlByte s))) := by
  cases i with
  | ackwait | cbAck | cbNak | cbCtlrsv => cases hfull : s.pcfFull <;> simp [enabled, slotTest, slotControlByte, hfull]
  | _ => cases h

theorem enabled_of_lineInBytes {i : Instr} {b : Bytes} (h : lineInBytes i = some b) (s : State) :
    enabled i s = true := by
  cases i with
  | rxbytes | wbStart | wbEnd | wbEsc | wbLit | frameNak0 | frameNak1 | frameAck0 | frameAck1 => rfl
  | _ => cases h

theorem enabled_of_returnsValue {i : Instr} (h : returnsValue i = true) (s : State) :
    enabled i s = true := by
  cases i with
  | crc8 | crc7 | crc | encodeFrame | chunk | mkdata | mkctl | ctlclass => rfl
  | _ => cases h

theorem isControl_eq_rxCase (r : Bit) (c : Byte) (g : Bytes) :
    (rxCase r (c :: g) == .control) = isControl c := by
  rw [Bool.eq_iff_iff, beq_iff_eq, rxCase_eq_control_iff]
  simp

theorem guarded_execRxframe (s : State) : Guarded (enabled .rxframe s) (exec .rxframe s) := by
  cases hpend : s.rxpend with
  | none => simpa [enabled, exec, execRxframe, hpend] using guarded_held .noFramePending
  | some f =>
    have hframe := guarded_processFrame f s
    rw [ArqReceive.exec_rxframe hpend]
    cases f with
    | nil =>
      have hempty : (rxCase s.receiverSeq [] == .control) = false := rfl
      simpa [enabled, hpend, pendIsControl, hempty] using hframe
    | cons c g => simpa [enabled, hpend, pendIsControl, isControl_eq_rxCase] using hframe

theorem guarded_execCbData (c : Byte) (s : State) : Guarded (enabled (.cbData c) s) (exec (.cbData c) s) := by
  cases hpend : s.rxpend with
  | none =>
    simpa [enabled, exec, execCbData, hpend, pendControlByte] using guarded_held .noFramePending
  | some f =>
    have hexec : exec (.cbData c) s =
        require (!isControl c && controlByte f == some c) .otherControlByte (processFrame f s) := by
      simp [exec, execCbData, hpend]
    have hguard : enabled (.cbData c) s = (!isControl c && controlByte f == some c) := by
      simp [enabled, pendControlByte, hpend]
    rw [hexec, hguard]
    cases htest : (!isControl c && controlByte f == some c) with
    | false => exact guarded_held _
    | true =>
      simp only [Bool.and_eq_true, Bool.not_eq_true', beq_iff_eq] at htest
      obtain ⟨hdata, hhead⟩ := htest
      obtain ⟨g, rfl⟩ := List.head?_eq_some_iff.1 hhead
      have hframe := guarded_processFrame (c :: g) s
      rw [isControl_eq_rxCase, hdata] at hframe
      exact hframe

/-! ### Every instruction -/

theorem payloadFits_eq_false_iff {p : Config.Params} {payload : Bytes} :
    payloadFits p payload = false ↔ ∃ n, p.maxPayload = some n ∧ n < payload.length := by
  cases hmax : p.maxPayload <;> simp [payloadFits, hmax]

theorem not_accFits_iff {s : State} {b : Bytes} :
    ¬ accFits s b ↔ ∃ n, s.params.accCap = some n ∧ n < s.rxacc.length + b.length := by
  simp [accFits]

/-- The instruction faults with `accOverflow` (R215). -/
def Overflows (i : Instr) (s : State) : Prop := ∃ b, lineInBytes i = some b ∧ ¬ accFits s b

/-- The instruction faults with `payloadTooLong` (R215). -/
def TooLong (i : Instr) (s : State) : Prop :=
  ∃ p, i = .send p ∧ busy s = false ∧ payloadFits s.params p = false

theorem guarded_of_lineInBytes {i : Instr} {b : Bytes} (hi : lineInBytes i = some b) {s : State}
    (hfits : accFits s b) : Guarded (enabled i s) (exec i s) := by
  rw [exec_of_lineInBytes hi, enabled_of_lineInBytes hi, appendRx_next hfits]
  exact guarded_next _

/-- An instruction is guarded by its enabling condition, or it is one of the two model faults. -/
theorem exec_guarded_or_fault (i : Instr) (s : State) :
    Guarded (enabled i s) (exec i s) ∨ (Overflows i s ∧ exec i s = .fault .accOverflow) ∨
      (TooLong i s ∧ exec i s = .fault .payloadTooLong) := by
  obtain rfl | ⟨p, rfl⟩ | rfl | rfl | rfl | hi | hi | ⟨b, hi⟩ | hi := instr_groups i
  · exact .inl (guarded_next _)
  · cases hbusy : busy s with
    | true =>
      refine .inl ?_
      rw [show enabled (.send p) s = false by simp [enabled, hbusy],
        show exec (.send p) s = _ from require_false (by simp [hbusy])]
      exact guarded_held _
    | false =>
      have hexec : exec (.send p) s = _ := require_true (by simp [hbusy])
      cases hfits : payloadFits s.params p with
      | true =>
        refine .inl ?_
        rw [hexec, hfits, show enabled (.send p) s = true by simp [enabled, hbusy]]
        exact guarded_next _
      | false => exact .inr (.inr ⟨⟨p, rfl, hbusy, hfits⟩, by rw [hexec, hfits]; rfl⟩)
  · exact .inl (guarded_require _ (guarded_require_next _ _ _))
  · rw [show enabled .timeout s = (awaiting s && s.params.hasTimeout) from Bool.and_comm _ _]
    exact .inl (guarded_require _ (guarded_require_next _ _ _))
  · exact .inl (guarded_require_next _ _ _)
  · rw [exec_of_consumesSlot hi, enabled_of_consumesSlot hi]
    exact .inl (guarded_ackwaitWhen _ s)
  · cases i with
    | rxframe => exact .inl (guarded_execRxframe s)
    | cbData c => exact .inl (guarded_execCbData c s)
    | _ => cases hi
  · by_cases hfits : accFits s b
    · exact .inl (guarded_of_lineInBytes hi hfits)
    · exact .inr (.inl ⟨⟨b, hi, hfits⟩, (exec_of_lineInBytes hi s).trans (appendRx_fault hfits)⟩)
  · obtain ⟨v, hv⟩ := exec_of_returnsValue hi s
    rw [hv, enabled_of_returnsValue hi]
    exact .inl (guarded_next _)

theorem enabled_of_overflows {i : Instr} {s : State} (h : Overflows i s) : enabled i s = true := by
  obtain ⟨b, hi, -⟩ := h
  exact enabled_of_lineInBytes hi s

theorem enabled_of_tooLong {i : Instr} {s : State} (h : TooLong i s) : enabled i s = true := by
  obtain ⟨p, rfl, hbusy, -⟩ := h
  simp [enabled, hbusy]

theorem enabled_of_exec_next {i : Instr} {s t : State} (h : exec i s = .next t) : enabled i s = true := by
  obtain (⟨hon, -⟩ | ⟨-, k, hk⟩) | ⟨-, hk⟩ | ⟨-, hk⟩ := exec_guarded_or_fault i s
  · exact hon
  · cases h.symm.trans hk
  · cases h.symm.trans hk
  · cases h.symm.trans hk

theorem held_of_exec_refused {i : Instr} {s : State} {r : Refusal} (h : exec i s = .refused r) :
    enabled i s = false ∧ ∃ k, r = .held k := by
  obtain (⟨-, t, hk⟩ | ⟨hoff, k, hk⟩) | ⟨-, hk⟩ | ⟨-, hk⟩ := exec_guarded_or_fault i s
  · cases h.symm.trans hk
  · cases h.symm.trans hk
    exact ⟨hoff, k, rfl⟩
  · cases h.symm.trans hk
  · cases h.symm.trans hk

theorem exec_held_of_not_enabled {i : Instr} {s : State} (h : enabled i s = false) :
    ∃ k, exec i s = .refused (.held k) := by
  obtain (⟨hon, -⟩ | ⟨-, hk⟩) | ⟨hfault, -⟩ | ⟨hfault, -⟩ := exec_guarded_or_fault i s
  · cases h.symm.trans hon
  · exact hk
  · cases h.symm.trans (enabled_of_overflows hfault)
  · cases h.symm.trans (enabled_of_tooLong hfault)

theorem exec_refused_iff {i : Instr} {s : State} : (∃ r, exec i s = .refused r) ↔ enabled i s = false := by
  constructor
  · rintro ⟨r, h⟩
    exact (held_of_exec_refused h).1
  · intro h
    obtain ⟨k, hk⟩ := exec_held_of_not_enabled h
    exact ⟨_, hk⟩

/-- Settles O36: no meaning refuses but where its guard is false. -/
theorem refusedMeansHeld : Obligations.RefusedMeansHeld := by
  refine fun i s => ⟨⟨exec_held_of_not_enabled, ?_⟩, fun r h => (held_of_exec_refused h).2⟩
  rintro ⟨k, h⟩
  exact (held_of_exec_refused h).1

/-! ### Faults (R215) -/

theorem exec_of_overflows {i : Instr} {s : State} (h : Overflows i s) : exec i s = .fault .accOverflow := by
  obtain ⟨b, hi, hfits⟩ := h
  rw [exec_of_lineInBytes hi, appendRx_fault hfits]

theorem exec_of_tooLong {i : Instr} {s : State} (h : TooLong i s) : exec i s = .fault .payloadTooLong := by
  obtain ⟨p, rfl, hbusy, hfits⟩ := h
  simp [exec, execSend, require, hbusy, hfits]

theorem fault_cases {i : Instr} {s : State} {f : Fault} (h : exec i s = .fault f) :
    (Overflows i s ∧ f = .accOverflow) ∨ (TooLong i s ∧ f = .payloadTooLong) := by
  obtain (⟨-, t, hk⟩ | ⟨-, k, hk⟩) | ⟨hfault, hk⟩ | ⟨hfault, hk⟩ := exec_guarded_or_fault i s
  · cases h.symm.trans hk
  · cases h.symm.trans hk
  · cases h.symm.trans hk
    exact .inl ⟨hfault, rfl⟩
  · cases h.symm.trans hk
    exact .inr ⟨hfault, rfl⟩

theorem exec_accOverflow_iff {i : Instr} {s : State} : exec i s = .fault .accOverflow ↔ Overflows i s := by
  refine ⟨fun h => ?_, exec_of_overflows⟩
  obtain ⟨hfault, -⟩ | ⟨-, hf⟩ := fault_cases h
  · exact hfault
  · cases hf

theorem exec_payloadTooLong_iff {i : Instr} {s : State} :
    exec i s = .fault .payloadTooLong ↔ TooLong i s := by
  refine ⟨fun h => ?_, exec_of_tooLong⟩
  obtain ⟨-, hf⟩ | ⟨hfault, -⟩ := fault_cases h
  · cases hf
  · exact hfault

theorem exec_ne_fault {i : Instr} {s : State} (hcap : s.params.accCap = none)
    (hmax : s.params.maxPayload = none) (f : Fault) : exec i s ≠ .fault f := by
  intro h
  obtain ⟨⟨b, -, hfits⟩, -⟩ | ⟨⟨p, -, -, hfits⟩, -⟩ := fault_cases h
  · obtain ⟨n, hn, -⟩ := not_accFits_iff.1 hfits
    cases hcap.symm.trans hn
  · obtain ⟨n, hn, -⟩ := payloadFits_eq_false_iff.1 hfits
    cases hmax.symm.trans hn

/-- Settles O37: the two faults are an arrival that does not fit and a SEND that is too long. -/
theorem faultsAreTheTwoModelFaults : Obligations.FaultsAreTheTwoModelFaults := by
  refine fun i s => ⟨?_, ?_, exec_ne_fault⟩
  · rw [exec_accOverflow_iff]
    simp only [Overflows, not_accFits_iff, exists_and_left]
  · rw [exec_payloadTooLong_iff]
    simp only [TooLong, payloadFits_eq_false_iff, busy_eq_false_iff, exists_and_left, and_assoc]

/-! ### The column "enabled when" (R100) -/

theorem enabled_rxframe_iff {s : State} : enabled .rxframe s = true ↔ ∃ f, s.rxpend = some f ∧
    ((∃ c g, f = c :: g ∧ c.getLsbD 4 = true) → s.pcfFull = false) := by
  match hpend : s.rxpend with
  | none => simp [enabled, hpend]
  | some [] => simp [enabled, hpend, pendIsControl]
  | some (c :: g) =>
    cases hfull : s.pcfFull <;>
      simp [enabled, hpend, pendIsControl, hfull, ArqReceive.isControl_eq_getLsbD]

theorem not_refused_of_enabled {i : Instr} {s : State} (h : enabled i s = true) (r : Refusal) :
    exec i s ≠ .refused r := by
  intro hr
  cases h.symm.trans (held_of_exec_refused hr).1

theorem exec_next_of_unbounded {i : Instr} {s : State} (hcap : s.params.accCap = none)
    (hmax : s.params.maxPayload = none) (hr : ∀ r, exec i s ≠ .refused r) : ∃ t, exec i s = .next t := by
  cases hexec : exec i s with
  | next t => exact ⟨t, rfl⟩
  | fault f => exact absurd hexec (exec_ne_fault hcap hmax f)
  | refused r => exact absurd hexec (hr r)

/-- Settles O35: held means not enabled, and each condition is the table's. -/
theorem operationsAreHeldAsTheTableSays : Obligations.OperationsAreHeldAsTheTableSays := by
  refine fun s => ⟨not_refused_of_enabled rfl, fun p => ?_, ?_, ?_, ?_, fun b => not_refused_of_enabled rfl,
    ?_, ?_, fun hcap hmax i => exec_next_of_unbounded hcap hmax⟩
  · rw [exec_refused_iff, ← busy_eq_false_iff]
    simp [enabled]
  · rw [exec_refused_iff, ← awaiting_eq_false_iff, ← Bool.not_eq_true]
    simp [enabled]
  · rw [exec_refused_iff, ← awaiting_iff, ← Bool.not_eq_true]
    simp [enabled]
  · rw [exec_refused_iff, ← awaiting_iff, ← Bool.not_eq_true]
    simp [enabled]
  · rw [exec_refused_iff, ← Bool.not_eq_true]
    simp [enabled]
  · rw [exec_refused_iff, ← enabled_rxframe_iff, Bool.not_eq_true]

end Sys2Proof.Guards

/-! PROOFS. The invariant and the rules of every completing instruction (10_state.md R36, R38, 43_arq_send.md
R160, 44_arq_receive.md R189, 60_exceptions.md R216), each by the moves. -/

namespace Sys2Proof.Rules

open Sys2Proof.Machine Sys2Proof.Safety Sys2Proof.Transition

/-! ### The invariant (R36) -/

theorem length_takeChunk_le (q : Bytes) : (takeChunk q).1.length ≤ 8 := by
  obtain h | h := Nat.lt_or_ge q.length 8
  · rw [Chunker.takeChunk_of_lt h]
    exact Nat.le_of_lt h
  · rw [Chunker.takeChunk_of_le h]
    exact List.length_take_le 8 q

theorem isWireFrame_mkdata (q : Bit) (c : Bytes) : isWireFrame (mkdata q c) = true :=
  Scan.isWireFrame_frameOf _ _

theorem isWireFrame_mkctl (c q : Byte) : isWireFrame (mkctl c q) = true := Scan.isWireFrame_frameOf _ _

/-- One more transmitted frame of the grammar keeps the log one of such frames. -/
theorem wire_concat {log : List Bytes} {f : Bytes} (hlog : ∀ g ∈ log, isWireFrame g = true)
    (hf : isWireFrame f = true) : ∀ g ∈ log ++ [f], isWireFrame g = true := by
  intro g hg
  obtain hg | hg := List.mem_append.1 hg
  · exact hlog g hg
  · exact List.mem_singleton.1 hg ▸ hf

/-- While a frame is outstanding, the held frame is one of the grammar. -/
theorem isWireFrame_txhold {s : State} (hinv : StationInv s) (hwait : s.arq = .awaitingAck) :
    isWireFrame s.txhold = true := by
  obtain ⟨c, -, hhold⟩ := hinv.held hwait
  rw [hhold]
  exact isWireFrame_mkdata _ c

/-- What has the reset values meets the invariant, with legal parameters and a log of the grammar. -/
theorem stationInv_of_hasResetValues {s : State} (h : HasResetValues s) (hparams : s.params.wf = true)
    (hwire : ∀ f ∈ s.txLog, isWireFrame f = true) : StationInv s := by
  obtain ⟨-, -, harq, hqueue, -, -, -, hslot⟩ := h
  exact
    { queue := fun _ => hqueue
      held := fun hwait => by cases harq.symm.trans hwait
      slot := fun hfull => by cases hslot.symm.trans hfull
      params := hparams
      wire := hwire }

theorem hasResetValues_reset : HasResetValues State.reset := ⟨rfl, rfl, rfl, rfl, rfl, rfl, rfl, rfl⟩

theorem hasResetValues_resetStation (s : State) : HasResetValues (resetStation s) :=
  ⟨rfl, rfl, rfl, rfl, rfl, rfl, rfl, rfl⟩

/-- Settles O55: the machine starts with the reset values, unbounded capacities and an empty log. -/
theorem resetStateMeetsTheInvariant : Obligations.ResetStateMeetsTheInvariant :=
  stationInv_of_hasResetValues hasResetValues_reset rfl fun _ hf => by cases hf

theorem stationInv_moves {i : Instr} {s t : State} (hinv : StationInv s) (h : Moves i s t) :
    StationInv t := by
  have ⟨hqueue, hheld, hslot, hparams, hwire⟩ := hinv
  cases h with
  | reset => exact stationInv_of_hasResetValues (hasResetValues_resetStation s) hparams hwire
  | load hbusy => exact ⟨(fun hvalid => by cases hvalid), hheld, hslot, hparams, hwire⟩
  | chunk hvalid hidle =>
    exact ⟨Chunker.takeChunk_rest_eq_nil, fun _ => ⟨_, length_takeChunk_le _, rfl⟩, hslot, hparams,
      wire_concat hwire (isWireFrame_mkdata _ _)⟩
  | acknowledge hi hwait hfull hack =>
    exact ⟨hqueue, (fun hwait' => by cases hwait'), (fun hfull' => by cases hfull'), hparams, hwire⟩
  | retransmit hi hwait hfull hack =>
    exact ⟨hqueue, hheld, (fun hfull' => by cases hfull'), hparams,
      wire_concat hwire (isWireFrame_txhold hinv hwait)⟩
  | expire hwait htimer =>
    exact ⟨hqueue, hheld, hslot, hparams, wire_concat hwire (isWireFrame_txhold hinv hwait)⟩
  | arrive hi => exact ⟨hqueue, hheld, hslot, hparams, hwire⟩
  | extract hpend => exact ⟨hqueue, hheld, hslot, hparams, hwire⟩
  | discard hi hpend => exact ⟨hqueue, hheld, hslot, hparams, hwire⟩
  | store hi hpend hcontrol hempty =>
    exact ⟨hqueue, hheld, fun _ => ⟨_, _, rfl, hcontrol⟩, hparams, hwire⟩
  | reject hi hpend hcase =>
    exact ⟨hqueue, hheld, hslot, hparams, wire_concat hwire (isWireFrame_mkctl _ _)⟩
  | reacknowledge hi hpend hcase =>
    exact ⟨hqueue, hheld, hslot, hparams, wire_concat hwire (isWireFrame_mkctl _ _)⟩
  | accept hi hpend hdata =>
    exact ⟨hqueue, hheld, hslot, hparams, wire_concat hwire (isWireFrame_mkctl _ _)⟩
  | value hi => exact ⟨hqueue, hheld, hslot, hparams, hwire⟩

theorem stationInv_canStep {s t : State} (hinv : StationInv s) (h : CanStep s t) : StationInv t := by
  obtain ⟨i, hi⟩ := h
  exact stationInv_moves hinv (moves_of_exec hi)

/-- The invariant says nothing of `sched`. -/
theorem stationInv_sched {s : State} (hinv : StationInv s) (es : List Issue) :
    StationInv { s with sched := es } :=
  ⟨hinv.queue, hinv.held, hinv.slot, hinv.params, hinv.wire⟩

/-- Settles O56: each move keeps the invariant, and the machine's step is one after the issue is taken. -/
theorem stepsKeepTheInvariant : Obligations.StepsKeepTheInvariant := by
  refine ⟨fun s t => stationInv_canStep, fun s t hinv h => ?_⟩
  obtain ⟨e, rest, i, -, -, hexec⟩ := step_next_iff.1 h
  exact stationInv_canStep (stationInv_sched hinv rest) ⟨i, hexec⟩

/-- Settles O57, by induction on the run. -/
theorem reachableStatesMeetTheInvariant : Obligations.ReachableStatesMeetTheInvariant := by
  intro s₀ s hparams hwire hrun
  induction hrun with
  | refl => exact stationInv_of_hasResetValues (hasResetValues_resetStation s₀) hparams hwire
  | tail _ hstep ih => exact stationInv_canStep ih hstep

/-! ### The sender's state machine (R160) -/

theorem complement_ne (q : Bit) : complement q ≠ q := by
  revert q; decide

/-- What the transition table allows one instruction to do to `arq`, `senderSeq` and `busy`. -/
def ArqRules (i : Instr) (s t : State) : Prop :=
  (s.arq = .idle → t.arq = .awaitingAck → i = .txdata ∧ s.sqValid = true) ∧
  (s.arq = .awaitingAck → t.arq = .idle → i = .reset ∨
    (consumesSlot i = true ∧ s.pcfFull = true ∧
      s.pcf = ackBytes s.senderSeq)) ∧
  (i ≠ .reset → (t.senderSeq = 1#1 - s.senderSeq ↔ s.arq = .awaitingAck ∧ t.arq = .idle)) ∧
  (i ≠ .reset → t.senderSeq = s.senderSeq ∨ t.senderSeq = 1#1 - s.senderSeq) ∧
  (busy s = true → busy t = false → i = .reset ∨
    (consumesSlot i = true ∧ s.pcfFull = true ∧ s.sqValid = false ∧
      s.pcf = ackBytes s.senderSeq))

/-- Where neither `arq` nor the counter moves, the transition table has nothing to say. -/
theorem arqRules_of_stutter {i : Instr} {s t : State} (harq : t.arq = s.arq)
    (hseq : t.senderSeq = s.senderSeq) (hbusy : busy s = true → busy t = true) : ArqRules i s t := by
  have hne : s.senderSeq ≠ 1#1 - s.senderSeq := (complement_ne s.senderSeq).symm
  refine ⟨fun hidle hwait => ?_, fun hwait hidle => ?_, fun _ => ?_, fun _ => .inl hseq,
    fun hs ht => ?_⟩
  · cases hidle.symm.trans (harq.symm.trans hwait)
  · cases hwait.symm.trans (harq.symm.trans hidle)
  · rw [hseq, harq]
    refine ⟨fun h => absurd h hne, fun ⟨hwait, hidle⟩ => ?_⟩
    cases hwait.symm.trans hidle
  · cases ht.symm.trans (hbusy hs)

/-- Settles O24: only TXDATA, an acknowledgment and RESET move `arq`, and the counter moves with the
acknowledgment alone. -/
theorem arqMovesOnlyAsTheTransitionTableSays : Obligations.ArqMovesOnlyAsTheTransitionTableSays := by
  intro i s t h
  cases moves_of_exec h with
  | reset => exact ⟨nofun, fun _ _ => .inl rfl, fun hi => absurd rfl hi, fun hi => absurd rfl hi, fun _ _ => .inl rfl⟩
  | load hbusy => exact arqRules_of_stutter rfl rfl fun _ => rfl
  | chunk hvalid hidle =>
    refine ⟨fun _ _ => ⟨rfl, hvalid⟩, fun _ => nofun, fun _ => ⟨fun hseq => ?_, fun ⟨_, ht⟩ => nomatch ht⟩,
      fun _ => .inl rfl, fun _ hbusy => ?_⟩
    · exact absurd hseq (complement_ne s.senderSeq).symm
    · cases (busy_eq_false_iff.1 hbusy).2
  | acknowledge hi hwait hfull hack =>
    exact ⟨fun _ => nofun, fun _ _ => .inr ⟨hi, hfull, hack⟩, fun _ => ⟨fun _ => ⟨hwait, rfl⟩, fun _ => rfl⟩,
      fun _ => .inr rfl, fun _ hbusy => .inr ⟨hi, hfull, (busy_eq_false_iff.1 hbusy).1, hack⟩⟩
  | retransmit | expire | arrive | extract | discard | store | reject | reacknowledge | accept | value =>
    exact arqRules_of_stutter rfl rfl id

/-- Settles O46: without a full slot there is nothing to acknowledge, TXDATA and SEND wait, and only a
timer or the answer to a frame transmits. -/
theorem silenceKeepsTheSenderWaiting : Obligations.SilenceKeepsTheSenderWaiting := by
  intro i s t hwait hempty h hreset
  have hanswer (hi : processesFrame i = true) (log : List Bytes) :
      s.params.hasTimeout = false → i ≠ .rxframe → (∀ c, i ≠ .cbData c) → log = s.txLog := by
    intro _ hrxframe hdata
    cases i with
    | rxframe => exact absurd rfl hrxframe
    | cbData c => exact absurd rfl (hdata c)
    | _ => cases hi
  cases moves_of_exec h with
  | reset => exact absurd rfl hreset
  | load hbusy => cases (busy_eq_false_iff.1 hbusy).2.symm.trans hwait
  | chunk hvalid hidle => cases hidle.symm.trans hwait
  | acknowledge hi _ hfull => cases hempty.symm.trans hfull
  | retransmit hi _ hfull => cases hempty.symm.trans hfull
  | expire _ htimer => exact ⟨hwait, rfl, rfl, rfl, fun hnone => by cases hnone.symm.trans htimer⟩
  | arrive | extract | value => exact ⟨hwait, rfl, rfl, rfl, fun _ _ _ => rfl⟩
  | discard hi | store hi | reject hi | reacknowledge hi | accept hi =>
    exact ⟨hwait, rfl, rfl, rfl, hanswer hi _⟩

/-! ### The slot (R29, R64) -/

/-- Settles O43: the slot is filled only when empty and emptied only by its consumers and RESET. -/
theorem fullSlotIsNotOverwritten : Obligations.FullSlotIsNotOverwritten := by
  intro i s t h hfull
  cases moves_of_exec h with
  | reset => exact .inr (.inl rfl)
  | acknowledge hi | retransmit hi => exact .inr (.inr ⟨hi, rfl⟩)
  | store _ _ _ hempty => cases hempty.symm.trans hfull
  | load | chunk | expire | arrive | extract | discard | reject | reacknowledge | accept | value =>
    exact .inl ⟨hfull, rfl⟩

/-! ### The receive path -/

/-- Settles O31: a delivery is the acceptance of a frame. -/
theorem onlyAcceptedPayloadsAreDelivered : Obligations.OnlyAcceptedPayloadsAreDelivered := by
  intro i s t h
  cases moves_of_exec h with
  | reset => exact .inl ⟨rfl, fun hi => absurd rfl hi⟩
  | accept hi hpend hdata =>
    rw [ArqReceive.isControl_eq_getLsbD] at hdata
    exact .inr ⟨_, _, hpend, hdata, rfl, rfl, rfl⟩
  | load | chunk | acknowledge | retransmit | expire | arrive | extract | discard | store | reject
  | reacknowledge | value => exact .inl ⟨rfl, fun _ => rfl⟩

/-- Settles O44: only EXTRACT puts a frame into `rxpend`. -/
theorem pendingFrameComesFromExtract : Obligations.PendingFrameComesFromExtract := by
  intro i s t f h hf
  cases moves_of_exec h with
  | extract hpend => exact .inr ⟨rfl, hpend, by rw [Scan.extractIndexed_eq_extractFrom]; exact hf⟩
  | reset | discard | store | reject | reacknowledge | accept => cases hf
  | load | chunk | acknowledge | retransmit | expire | arrive | value => exact .inl hf

/-- Settles O45: EXTRACT waits for `rxpend` to be emptied, RXFRAME for the slot, and all else leaves the
receive path alone. -/
theorem fullSlotStallsTheReceivePath : Obligations.FullSlotStallsTheReceivePath := by
  intro i s t c f hpend hbit hfull h hreset
  rw [← ArqReceive.isControl_eq_getLsbD] at hbit
  have hcontrol : rxCase s.receiverSeq (c :: f) = .control := rxCase_eq_control_iff.2 ⟨c, f, rfl, hbit⟩
  have hframe {g : Bytes} (hg : s.rxpend = some g) : rxCase s.receiverSeq g = .control := by
    cases hpend.symm.trans hg
    exact hcontrol
  cases moves_of_exec h with
  | reset => exact absurd rfl hreset
  | acknowledge hi hwait | retransmit hi hwait =>
    exact ⟨rfl, rfl, List.prefix_rfl, .inr ⟨hi, hwait⟩⟩
  | arrive => exact ⟨rfl, rfl, List.prefix_append _ _, .inl hfull⟩
  | load | chunk | expire | value => exact ⟨rfl, rfl, List.prefix_rfl, .inl hfull⟩
  | extract hnone => cases hnone.symm.trans hpend
  | store _ _ _ hempty => cases hempty.symm.trans hfull
  | discard _ hg => cases hg.symm.trans hpend
  | reject _ hg hcase =>
    rw [hframe hg] at hcase
    obtain hcase | hcase := hcase <;> cases hcase
  | reacknowledge _ hg hcase => cases (hframe hg).symm.trans hcase
  | accept _ hg hdata =>
    cases hpend.symm.trans hg
    cases hbit.symm.trans hdata

/-! ### Who writes what (R38) -/

/-- Settles O39: no move touches them. -/
theorem parametersAndScheduleAreNotWritten : Obligations.ParametersAndScheduleAreNotWritten := by
  intro i s t h
  cases moves_of_exec h <;> exact ⟨rfl, rfl⟩

theorem consumeSlot_writes (s : State) : consumeSlot s =
    { s with senderSeq := (consumeSlot s).senderSeq, arq := (consumeSlot s).arq,
             pcfFull := (consumeSlot s).pcfFull, txLog := (consumeSlot s).txLog } := by
  obtain ⟨-, h⟩ | ⟨-, h⟩ := consumeSlot_cases s <;> rw [h] <;> rfl

theorem processFrame_writes {f : Bytes} {s t : State} (h : processFrame f s = .next t) :
    t = { s with receiverSeq := t.receiverSeq, rxpend := t.rxpend, pcfFull := t.pcfFull, pcf := t.pcf,
                 txLog := t.txLog, dlvLog := t.dlvLog } := by
  obtain ⟨-, rfl⟩ | ⟨-, -, rfl⟩ | ⟨-, rfl⟩ | ⟨-, rfl⟩ | ⟨-, rfl⟩ := processFrame_next_iff.1 h <;> rfl

/-- Settles O38: each operation's next state, as its own law gives it. -/
theorem accessTableOfWrites : Obligations.AccessTableOfWrites := by
  refine ⟨fun s t h => ?_, fun p s t h => ?_, fun s t h => ?_, fun s t h => ?_, fun s t h => ?_,
    fun b s t h => ?_, fun s t h => ?_, fun s t h => ?_⟩
  · rw [execReset_next_iff.1 h]
    rfl
  · obtain ⟨-, -, rfl⟩ := execSend_next_iff.1 h
    rfl
  · obtain ⟨-, -, rfl⟩ := execTxdata_next_iff.1 h
    rfl
  · obtain ⟨-, -, -, rfl⟩ := (ackwaitWhen_next_iff (ok := fun _ => true)).1 h
    exact consumeSlot_writes s
  · obtain ⟨-, -, rfl⟩ := execTimeout_next_iff.1 h
    rfl
  · obtain ⟨-, rfl⟩ := appendRx_next_iff.1 h
    rfl
  · obtain ⟨-, rfl⟩ := execExtract_next_iff.1 h
    rfl
  · obtain ⟨f, -, hframe⟩ := execRxframe_next_iff.1 h
    exact processFrame_writes hframe

end Sys2Proof.Rules

/-! PROOFS. What the two paths do not read (10_state.md R22, R26, R29, 43_arq_send.md R167 (d), 44_arq_receive.md
R191). A hold reads what its guard reads, so an update that no guard sees passes through `require`. -/

namespace Sys2Proof.Noninterference

open Sys2Proof.Machine Sys2Proof.Safety Sys2Proof.Transition

theorem mapNext_require (g : State → State) (c : Bool) (h : Hold) (k : Result) :
    mapNext g (require c h k) = require c h (mapNext g k) := by
  cases c <;> rfl

/-! ### The receive path does not read the send path (R191) -/

/-- Other values in the five elements of the send path. -/
def withSendPath (q : Bit) (a : Arq) (v : Bool) (w h : Bytes) (s : State) : State :=
  { s with senderSeq := q, arq := a, sqValid := v, sendq := w, txhold := h }

section ReceivePath

variable (q : Bit) (a : Arq) (v : Bool) (w h : Bytes) (s : State)

theorem appendRx_withSendPath (b : Bytes) :
    appendRx b (withSendPath q a v w h s) = mapNext (withSendPath q a v w h) (appendRx b s) := by
  by_cases hfits : accFits s b
  · rw [appendRx_next hfits, appendRx_next (s := withSendPath q a v w h s) hfits]
    rfl
  · rw [appendRx_fault hfits, appendRx_fault (s := withSendPath q a v w h s) hfits]
    rfl

theorem execExtract_withSendPath :
    execExtract (withSendPath q a v w h s) = mapNext (withSendPath q a v w h) (execExtract s) := by
  rw [execExtract, execExtract, mapNext_require]
  rfl

theorem processFrame_withSendPath (f : Bytes) :
    processFrame f (withSendPath q a v w h s) = mapNext (withSendPath q a v w h) (processFrame f s) := by
  have hseq : (withSendPath q a v w h s).receiverSeq = s.receiverSeq := rfl
  cases hcase : rxCase s.receiverSeq f with
  | control =>
    simp only [processFrame, hseq, hcase, mapNext_require]
    rfl
  | empty | runt | mismatch | duplicate | accept =>
    simp only [processFrame, hseq, hcase]
    rfl

theorem execRxframe_withSendPath :
    execRxframe (withSendPath q a v w h s) = mapNext (withSendPath q a v w h) (execRxframe s) := by
  cases hpend : s.rxpend with
  | none => simp [execRxframe, withSendPath, hpend, mapNext]
  | some f =>
    have hpend' : (withSendPath q a v w h s).rxpend = some f := hpend
    simp only [execRxframe, hpend, hpend']
    exact processFrame_withSendPath q a v w h s f

end ReceivePath

/-- Settles O40, by the three operations of the receive path. -/
theorem receivePathIgnoresTheSendPath : Obligations.ReceivePathIgnoresTheSendPath := by
  intro i hi s q a v w h
  obtain ⟨b, rfl⟩ | rfl | rfl := hi
  · exact appendRx_withSendPath q a v w h s b
  · exact execExtract_withSendPath q a v w h s
  · exact execRxframe_withSendPath q a v w h s

/-! ### The send path does not read the receive path (R167 (d)) -/

/-- Other values in the receive path, but for the slot, and in the record of deliveries. -/
def withReceivePath (q : Bit) (acc : Bytes) (f : Option Bytes) (d : List Bytes) (s : State) : State :=
  { s with receiverSeq := q, rxacc := acc, rxpend := f, dlvLog := d }

section SendPath

variable (q : Bit) (acc : Bytes) (f : Option Bytes) (d : List Bytes) (s : State)

theorem execSend_withReceivePath (p : Bytes) :
    execSend p (withReceivePath q acc f d s) = mapNext (withReceivePath q acc f d) (execSend p s) := by
  have hbusy : busy (withReceivePath q acc f d s) = busy s := rfl
  have hparams : (withReceivePath q acc f d s).params = s.params := rfl
  rw [execSend, execSend, mapNext_require, hbusy, hparams]
  cases payloadFits s.params p <;> rfl

theorem execTxdata_withReceivePath :
    execTxdata (withReceivePath q acc f d s) = mapNext (withReceivePath q acc f d) (execTxdata s) := by
  rw [execTxdata, execTxdata, mapNext_require, mapNext_require]
  rfl

theorem consumeSlot_withReceivePath :
    consumeSlot (withReceivePath q acc f d s) = withReceivePath q acc f d (consumeSlot s) := by
  have hack : acknowledges (withReceivePath q acc f d s).pcf (withReceivePath q acc f d s).senderSeq =
      acknowledges s.pcf s.senderSeq := rfl
  rw [consumeSlot, consumeSlot, hack]
  cases acknowledges s.pcf s.senderSeq <;> rfl

theorem execAckwait_withReceivePath :
    execAckwait (withReceivePath q acc f d s) = mapNext (withReceivePath q acc f d) (execAckwait s) := by
  rw [execAckwait, execAckwait, ackwaitWhen, ackwaitWhen, consumeSlot_withReceivePath, mapNext_require,
    mapNext_require, mapNext_require]
  rfl

theorem execTimeout_withReceivePath :
    execTimeout (withReceivePath q acc f d s) = mapNext (withReceivePath q acc f d) (execTimeout s) := by
  rw [execTimeout, execTimeout, mapNext_require, mapNext_require]
  rfl

end SendPath

/-- Only an accepted frame is delivered, by RXFRAME or the row DATA. -/
theorem dlvLog_of_not_processesFrame {i : Instr} {s t : State} (hi : processesFrame i = false)
    (h : exec i s = .next t) : t.dlvLog = s.dlvLog := by
  cases moves_of_exec h with
  | accept hframe => cases hi.symm.trans hframe
  | reset | load | chunk | acknowledge | retransmit | expire | arrive | extract | discard | store | reject
  | reacknowledge | value => rfl

/-- Settles O41, by the four operations of the send path. -/
theorem sendPathIgnoresTheReceivePath : Obligations.SendPathIgnoresTheReceivePath := by
  intro i hi
  obtain ⟨p, rfl⟩ | rfl | rfl | rfl := hi
  · exact ⟨fun s q acc f d => execSend_withReceivePath q acc f d s p, fun s t => dlvLog_of_not_processesFrame rfl⟩
  · exact ⟨fun s q acc f d => execTxdata_withReceivePath q acc f d s, fun s t => dlvLog_of_not_processesFrame rfl⟩
  · exact ⟨fun s q acc f d => execAckwait_withReceivePath q acc f d s, fun s t => dlvLog_of_not_processesFrame rfl⟩
  · exact ⟨fun s q acc f d => execTimeout_withReceivePath q acc f d s, fun s t => dlvLog_of_not_processesFrame rfl⟩

/-! ### The unspecified registers (R26, R29, R231)

Two results agree up to a register when they are equal once that register is cleared in both. -/

/-- The result with `txhold` cleared. -/
def clearTxhold : Result → Result := mapNext fun t => { t with txhold := [] }

/-- The result with `pcf` cleared. -/
def clearPcf : Result → Result := mapNext fun t => { t with pcf := [] }

theorem mapNext_appendRx_congr {g : State → State} {s s' : State} {b : Bytes} (hparams : s'.params = s.params)
    (hacc : s'.rxacc = s.rxacc)
    (heq : g { s' with rxacc := s'.rxacc ++ b } = g { s with rxacc := s.rxacc ++ b }) :
    mapNext g (appendRx b s') = mapNext g (appendRx b s) := by
  have hiff : accFits s' b ↔ accFits s b := by rw [accFits, accFits, hparams, hacc]
  by_cases hfits : accFits s b
  · rw [appendRx_next hfits, appendRx_next (hiff.2 hfits)]
    exact congrArg Host.Outcome.next heq
  · rw [appendRx_fault hfits, appendRx_fault (mt hiff.1 hfits)]

section Txhold

variable (h : Bytes) (s : State)

theorem processFrame_txhold (f : Bytes) :
    clearTxhold (processFrame f { s with txhold := h }) = clearTxhold (processFrame f s) := by
  cases hcase : rxCase s.receiverSeq f with
  | control =>
    simp only [processFrame, hcase, clearTxhold, mapNext_require]
    rfl
  | empty | runt | mismatch | duplicate | accept =>
    simp only [processFrame, hcase]
    rfl

theorem execSend_txhold (p : Bytes) :
    clearTxhold (execSend p { s with txhold := h }) = clearTxhold (execSend p s) := by
  have hbusy : busy { s with txhold := h } = busy s := rfl
  rw [execSend, execSend, clearTxhold, mapNext_require, mapNext_require, hbusy]
  cases payloadFits s.params p <;> rfl

theorem execExtract_txhold :
    clearTxhold (execExtract { s with txhold := h }) = clearTxhold (execExtract s) := by
  rw [execExtract, execExtract, clearTxhold, mapNext_require, mapNext_require]
  rfl

theorem exec_processesFrame_txhold {i : Instr} (hi : processesFrame i = true) :
    clearTxhold (exec i { s with txhold := h }) = clearTxhold (exec i s) := by
  cases i with
  | rxframe =>
    cases hpend : s.rxpend with
    | none => simp only [exec, execRxframe, hpend]
    | some f =>
      simp only [exec, execRxframe, hpend]
      exact processFrame_txhold h s f
  | cbData c =>
    cases hpend : s.rxpend with
    | none => simp only [exec, execCbData, hpend]
    | some f =>
      simp only [exec, execCbData, hpend, clearTxhold, mapNext_require]
      exact congrArg (require _ _) (processFrame_txhold h s f)
  | _ => cases hi

/-- While Idle the two operations that transmit `txhold` are held, TXDATA overwrites it, and no other
reads it (R26). -/
theorem exec_txhold (i : Instr) (hidle : s.arq = .idle) :
    clearTxhold (exec i { s with txhold := h }) = clearTxhold (exec i s) := by
  have hwait : awaiting s = false := awaiting_eq_false_iff.2 hidle
  obtain rfl | ⟨p, rfl⟩ | rfl | rfl | rfl | hi | hi | ⟨b, hi⟩ | hi := instr_groups i
  · rfl
  · exact execSend_txhold h s p
  · rfl
  · have hheld := require_false (h := .noFrameOutstanding)
      (k := require s.params.hasTimeout .noTimer (.next (transmit s.txhold s))) hwait
    have hheld' := require_false (h := .noFrameOutstanding)
      (k := require s.params.hasTimeout .noTimer (.next (transmit h { s with txhold := h }))) hwait
    exact congrArg clearTxhold (hheld'.trans hheld.symm)
  · exact execExtract_txhold h s
  · rw [exec_of_consumesSlot hi, exec_of_consumesSlot hi, ackwaitWhen, ackwaitWhen, require_false hwait,
      require_false (c := awaiting { s with txhold := h }) hwait]
  · exact exec_processesFrame_txhold h s hi
  · rw [exec_of_lineInBytes hi, exec_of_lineInBytes hi]
    exact mapNext_appendRx_congr rfl rfl rfl
  · cases i with
    | crc8 | crc7 | crc | encodeFrame | chunk | mkdata | mkctl | ctlclass => rfl
    | _ => cases hi

end Txhold

theorem ackwaitWhen_of_slotEmpty {s : State} {ok : Option Byte → Bool} (hempty : s.pcfFull = false) :
    ackwaitWhen ok s = require (awaiting s) .noFrameOutstanding (.refused (.held .slotEmpty)) := by
  rw [ackwaitWhen, require_false hempty]

section Pcf

variable (c : Bytes) (s : State)

/-- The case that fills the slot overwrites `pcf`, the others do not look at it. -/
theorem processFrame_pcf (f : Bytes) :
    clearPcf (processFrame f { s with pcf := c }) = clearPcf (processFrame f s) := by
  cases hcase : rxCase s.receiverSeq f with
  | control =>
    simp only [processFrame, hcase, clearPcf, mapNext_require]
    rfl
  | empty | runt | mismatch | duplicate | accept =>
    simp only [processFrame, hcase]
    rfl

theorem execSend_pcf (p : Bytes) :
    clearPcf (execSend p { s with pcf := c }) = clearPcf (execSend p s) := by
  have hbusy : busy { s with pcf := c } = busy s := rfl
  rw [execSend, execSend, clearPcf, mapNext_require, mapNext_require, hbusy]
  cases payloadFits s.params p <;> rfl

theorem exec_processesFrame_pcf {i : Instr} (hi : processesFrame i = true) :
    clearPcf (exec i { s with pcf := c }) = clearPcf (exec i s) := by
  cases i with
  | rxframe =>
    cases hpend : s.rxpend with
    | none => simp only [exec, execRxframe, hpend]
    | some f =>
      simp only [exec, execRxframe, hpend]
      exact processFrame_pcf c s f
  | cbData d =>
    cases hpend : s.rxpend with
    | none => simp only [exec, execCbData, hpend]
    | some f =>
      simp only [exec, execCbData, hpend, clearPcf, mapNext_require]
      exact congrArg (require _ _) (processFrame_pcf c s f)
  | _ => cases hi

/-- While the slot is empty its consumers are held, and no other operation reads `pcf` (R29). -/
theorem exec_pcf (i : Instr) (hempty : s.pcfFull = false) :
    clearPcf (exec i { s with pcf := c }) = clearPcf (exec i s) := by
  obtain rfl | ⟨p, rfl⟩ | rfl | rfl | rfl | hi | hi | ⟨b, hi⟩ | hi := instr_groups i
  · rfl
  · exact execSend_pcf c s p
  · simp only [exec, execTxdata, clearPcf, mapNext_require]
    rfl
  · simp only [exec, execTimeout, clearPcf, mapNext_require]
    rfl
  · simp only [exec, execExtract, clearPcf, mapNext_require]
    rfl
  · rw [exec_of_consumesSlot hi, exec_of_consumesSlot hi, ackwaitWhen_of_slotEmpty hempty,
      ackwaitWhen_of_slotEmpty (s := { s with pcf := c }) hempty]
    rfl
  · exact exec_processesFrame_pcf c s hi
  · rw [exec_of_lineInBytes hi, exec_of_lineInBytes hi]
    exact mapNext_appendRx_congr rfl rfl rfl
  · cases i with
    | crc8 | crc7 | crc | encodeFrame | chunk | mkdata | mkctl | ctlclass => rfl
    | _ => cases hi

end Pcf

/-- An RXFRAME that fills an empty slot stored a control frame, whatever `pcf` was. -/
theorem execRxframe_fill_pcf {s t : State} (c : Bytes) (hempty : s.pcfFull = false)
    (h : exec .rxframe s = .next t) (hfull : t.pcfFull = true) : exec .rxframe { s with pcf := c } = .next t := by
  obtain ⟨f, hpend, hframe⟩ := execRxframe_next_iff.1 h
  have hpend' : { s with pcf := c }.rxpend = some f := hpend
  rw [ArqReceive.exec_rxframe hpend']
  obtain ⟨-, rfl⟩ | ⟨hcase, -, rfl⟩ | ⟨-, rfl⟩ | ⟨-, rfl⟩ | ⟨-, rfl⟩ := processFrame_next_iff.1 hframe
  · cases hempty.symm.trans hfull
  · exact processFrame_next_iff.2 (.inr (.inl ⟨hcase, hempty, rfl⟩))
  · cases hempty.symm.trans hfull
  · cases hempty.symm.trans hfull
  · cases hempty.symm.trans hfull

/-- Settles O42: no guard that holds reads them, and what overwrites them forgets the difference. -/
theorem unspecifiedRegistersAreNotRead : Obligations.UnspecifiedRegistersAreNotRead :=
  ⟨fun i s h => exec_txhold h s i, fun i s c => exec_pcf c s i, fun _ _ _ => id,
    fun _ _ c => execRxframe_fill_pcf c⟩

end Sys2Proof.Noninterference

/-! PROOFS. The operations one at a time: next states and holds written out (30_encoding.md R100, 42_chunker.md
R152, 43_arq_send.md R162 to R166, 44_arq_receive.md R183, R184), and the conditions of R200. -/

namespace Sys2Proof.Operations

open Sys2Proof.Machine Sys2Proof.Safety Sys2Proof.Transition Sys2Proof.Guards

/-! ### RESET and the functions -/

/-- Settles O1: RESET gives the reset values and leaves the logs and the parameters. -/
theorem resetGivesTheResetValues : Obligations.ResetGivesTheResetValues :=
  ⟨Rules.hasResetValues_reset,
    fun s => ⟨_, rfl, Rules.hasResetValues_resetStation s, rfl, rfl, rfl⟩⟩

/-- Settles O32: each function's meaning is the return of its value. -/
theorem functionsReturnTheirValue : Obligations.FunctionsReturnTheirValue := fun _ =>
  ⟨fun _ => rfl, fun _ => rfl, fun _ _ _ _ => rfl, fun _ _ => rfl, fun _ => rfl, fun _ _ => rfl,
    fun _ _ => rfl, fun _ => rfl⟩

/-! ### SEND (R152) -/

theorem busy_eq_true_iff {s : State} : busy s = true ↔ s.sqValid = true ∨ s.arq = .awaitingAck := by
  simp [busy, awaiting_iff]

theorem payloadFits_of_le {p : Config.Params} {payload : Bytes}
    (h : ∀ n, p.maxPayload = some n → payload.length ≤ n) : payloadFits p payload = true := by
  by_contra hfits
  obtain ⟨n, hmax, hlong⟩ := payloadFits_eq_false_iff.1 (Bool.eq_false_iff.2 hfits)
  exact absurd (h n hmax) (Nat.not_le.2 hlong)

/-- Settles O18: by `busy`, then by `MAX_PAYLOAD`. -/
theorem sendLoadsTheQueue : Obligations.SendLoadsTheQueue := by
  refine ⟨fun s p hvalid hidle hmax => ?_, fun s p hbusy => ?_, fun s p n hvalid hidle hmax hlong => ?_⟩
  · exact execSend_next_iff.2 ⟨busy_eq_false_iff.2 ⟨hvalid, hidle⟩, payloadFits_of_le hmax, rfl⟩
  · exact require_false (by rw [busy_eq_true_iff.2 hbusy]; rfl)
  · exact exec_of_tooLong
      ⟨p, rfl, busy_eq_false_iff.2 ⟨hvalid, hidle⟩, payloadFits_eq_false_iff.2 ⟨n, hmax, hlong⟩⟩

/-! ### The send path (R162 to R166) -/

/-- Settles O20: the two lengths of `sendq` are the two takes. -/
theorem txdataSendsTheNextChunk : Obligations.TxdataSendsTheNextChunk := by
  refine ⟨fun s hvalid hidle hlen => ?_, fun s hvalid hidle hlen => ?_, fun s hvalid => ?_,
    fun s hvalid hwait => ?_⟩
  · refine execTxdata_next_iff.2 ⟨hvalid, awaiting_eq_false_iff.2 hidle, ?_⟩
    rw [Chunker.takeChunk_of_le hlen, ← hvalid]
    rfl
  · refine execTxdata_next_iff.2 ⟨hvalid, awaiting_eq_false_iff.2 hidle, ?_⟩
    rw [Chunker.takeChunk_of_lt hlen]
    rfl
  · exact require_false hvalid
  · exact (require_true hvalid).trans (require_false (by rw [awaiting_iff.2 hwait]; rfl))

theorem exec_consumesSlot_of_full {i : Instr} {s : State} (hi : consumesSlot i = true)
    (hwait : s.arq = .awaitingAck) (hfull : s.pcfFull = true)
    (htest : slotTest i (controlByte s.pcf) = true) : exec i s = .next (consumeSlot s) := by
  rw [exec_of_consumesSlot hi]
  refine ackwaitWhen_next_iff.2 ⟨awaiting_iff.2 hwait, hfull, ?_, rfl⟩
  rw [slotControlByte, if_pos hfull]
  exact htest

theorem consumeSlot_of_ack {s : State} (h : s.pcf = ackBytes s.senderSeq) :
    consumeSlot s = acknowledged (emptySlot s) := if_pos (acknowledges_iff.2 h)

theorem consumeSlot_of_not_ack {s : State}
    (h : s.pcf ≠ ackBytes s.senderSeq) :
    consumeSlot s = transmit s.txhold (emptySlot s) := if_neg (mt acknowledges_iff.1 h)

theorem consumeSlot_of_head_ne {s : State} {c : Byte} {f : Bytes} (hpcf : s.pcf = c :: f) (hc : c ≠ 0x11#8) :
    consumeSlot s = transmit s.txhold (emptySlot s) := by
  refine consumeSlot_of_not_ack fun hack => ?_
  exact hc (List.cons.inj (hpcf.symm.trans hack)).1

/-- Settles O22: what the slot holds decides between success and retransmission. -/
theorem ackwaitActsOnTheSlot : Obligations.AckwaitActsOnTheSlot := by
  refine ⟨fun s hwait hfull hack => ?_, fun s hwait hfull hack => ?_, fun s hidle => ?_,
    fun s hwait hempty => ?_⟩
  · refine ⟨s.pcf, s.txhold, ?_⟩
    rw [exec_consumesSlot_of_full rfl hwait hfull rfl, consumeSlot_of_ack hack]
    rfl
  · refine ⟨s.pcf, ?_⟩
    rw [exec_consumesSlot_of_full rfl hwait hfull rfl, consumeSlot_of_not_ack hack]
    rfl
  · exact require_false (awaiting_eq_false_iff.2 hidle)
  · exact (require_true (awaiting_iff.2 hwait)).trans (require_false hempty)

/-- Settles O23: both guards hold or one of them does not. -/
theorem timeoutRetransmitsTheHeldFrame : Obligations.TimeoutRetransmitsTheHeldFrame := by
  refine ⟨fun s hwait htimer => ?_, fun s h => exec_held_of_not_enabled ?_⟩
  · exact execTimeout_next_iff.2 ⟨awaiting_iff.2 hwait, htimer, rfl⟩
  · obtain hidle | htimer := h
    · rw [enabled, awaiting_eq_false_iff.2 hidle, Bool.and_false]
    · rw [enabled, htimer, Bool.false_and]

/-! ### RXFRAME on empty and control frames (R183, R184) -/

/-- Settles O26: the empty frame and the control frame are the first two cases. -/
theorem rxframeEmptyAndControlFrames : Obligations.RxframeEmptyAndControlFrames := by
  have hcase {c : Byte} (hc : c.getLsbD 4 = true) (r : Bit) (f : Bytes) : rxCase r (c :: f) = .control :=
    rxCase_eq_control_iff.2 ⟨c, f, rfl, (ArqReceive.isControl_eq_getLsbD c).trans hc⟩
  refine ⟨fun s hpend => ?_, fun s c f hpend hc hempty => ?_, fun s c f hpend hc hfull => ?_⟩
  · rw [ArqReceive.exec_rxframe hpend]
    rfl
  · rw [ArqReceive.exec_rxframe hpend]
    exact processFrame_next_iff.2 (.inr (.inl ⟨hcase hc _ f, hempty, rfl⟩))
  · rw [ArqReceive.exec_rxframe hpend]
    simp only [processFrame, hcase hc]
    exact require_false (by rw [hfull]; rfl)

/-! ### The rows that are not operations (log entries 7 to 9) -/

theorem exec_of_arrival {i : Instr} {b : Bytes} {s : State} (hi : lineInBytes i = some b)
    (hfits : ∀ n, s.params.accCap = some n → s.rxacc.length + b.length ≤ n) :
    exec i s = .next { s with rxacc := s.rxacc ++ b } := by
  rw [exec_of_lineInBytes hi]
  exact appendRx_next hfits

/-- Settles O33: each row is the arrival of its bytes, which for a frame are MKCTL's. -/
theorem wireRowsArriveOnLineIn : Obligations.WireRowsArriveOnLineIn := by
  refine fun s => ⟨fun hfits => ⟨?_, ?_, ?_, fun d => ?_⟩, fun hfits => ?_⟩
  · exact exec_of_arrival rfl hfits
  · exact exec_of_arrival rfl hfits
  · exact exec_of_arrival rfl hfits
  · exact exec_of_arrival rfl hfits
  · rw [ArqReceive.mkctl_nak_zero, ArqReceive.mkctl_nak_one, ArqReceive.mkctl_ack_zero, ArqReceive.mkctl_ack_one]
    exact ⟨exec_of_arrival rfl hfits, exec_of_arrival rfl hfits, exec_of_arrival rfl hfits,
      exec_of_arrival rfl hfits⟩

/-- The receive path looks at no bit of a data control byte but bit 4 (R86, R182). -/
theorem rxCase_data_control_byte {c d : Byte} (hc : isControl c = false) (hd : isControl d = false) (r : Bit)
    (f : Bytes) : rxCase r (c :: f) = rxCase r (d :: f) := by
  simp only [rxCase, hc, hd]

theorem processFrame_data_control_byte {c d : Byte} (hc : isControl c = false) (hd : isControl d = false)
    (f g : Bytes) (s : State) : processFrame (c :: f) s = processFrame (d :: f) { s with rxpend := some g } := by
  have hcase : rxCase s.receiverSeq (d :: f) ≠ .control := by
    rw [Ne, rxCase_eq_control_iff]
    rintro ⟨_, _, h, hcontrol⟩
    cases h
    cases hd.symm.trans hcontrol
  simp only [processFrame, rxCase_data_control_byte hc hd]
  cases h : rxCase s.receiverSeq (d :: f) with
  | control => exact absurd h hcase
  | empty | runt | mismatch | duplicate | accept => rfl

theorem exec_cbData {s : State} {d : Byte} {f : Bytes} (hpend : s.rxpend = some (d :: f))
    (hd : isControl d = false) : exec (.cbData d) s = processFrame (d :: f) s := by
  simp [exec, execCbData, hpend, require, controlByte, hd]

theorem processFrame_data_next {d : Byte} (hd : isControl d = false) (f : Bytes) (s : State) :
    ∃ t, processFrame (d :: f) s = .next t ∧ t.rxpend = none := by
  have hframe := guarded_processFrame (d :: f) s
  rw [isControl_eq_rxCase, hd] at hframe
  obtain ⟨-, t, ht⟩ | ⟨hoff, -⟩ := hframe
  · refine ⟨t, ht, ?_⟩
    obtain ⟨-, rfl⟩ | ⟨-, -, rfl⟩ | ⟨-, rfl⟩ | ⟨-, rfl⟩ | ⟨-, rfl⟩ := processFrame_next_iff.1 ht <;> rfl
  · cases hoff

/-- Settles O34: the row's test on the control byte is passed, and what remains is the operation. -/
theorem controlByteRowsActAsClassified : Obligations.ControlByteRowsActAsClassified := by
  refine ⟨fun s f hwait hfull hpcf => ?_, fun s f hwait hfull hpcf => ⟨s.pcf, ?_⟩,
    fun s r f hwait hfull hpcf _ _ hack => ⟨s.pcf, ?_⟩, fun s d f hpend hd => ?_⟩
  · have hrow : exec .cbAck s = .next (consumeSlot s) :=
      exec_consumesSlot_of_full rfl hwait hfull (by rw [hpcf]; rfl)
    have hackwait : exec .ackwait s = .next (consumeSlot s) := exec_consumesSlot_of_full rfl hwait hfull rfl
    refine ⟨hrow.trans hackwait.symm, _, hrow, ?_⟩
    obtain ⟨-, h⟩ | ⟨-, h⟩ := consumeSlot_cases s <;> rw [h] <;> rfl
  · rw [exec_consumesSlot_of_full rfl hwait hfull (by rw [hpcf]; rfl),
      consumeSlot_of_head_ne hpcf (by decide)]
    rfl
  · rw [exec_consumesSlot_of_full rfl hwait hfull (by simp [hpcf, slotTest, controlByte]),
      consumeSlot_of_head_ne hpcf hack]
    rfl
  · rw [← ArqReceive.isControl_eq_getLsbD] at hd
    have hzero : isControl 0x00#8 = false := rfl
    rw [exec_cbData hpend hd, ArqReceive.exec_rxframe (s := { s with rxpend := some (0x00#8 :: f) }) rfl]
    exact ⟨processFrame_data_control_byte hd hzero f _ s, processFrame_data_next hd f s⟩

/-! ### The conditions (R200, R208) -/

theorem conditions_of_enabled_rxframe {s : State} {f : Bytes} (hpend : s.rxpend = some f)
    (h : enabled .rxframe s = true) : conditions .rxframe s = frameConditions s.receiverSeq f := by
  simp [conditions, h, hpend]

theorem enabled_rxframe_of_data {s : State} {c : Byte} {f : Bytes} (hpend : s.rxpend = some (c :: f))
    (hc : c.getLsbD 4 = false) : enabled .rxframe s = true := by
  refine enabled_rxframe_iff.2 ⟨_, hpend, ?_⟩
  rintro ⟨_, _, h, hbit⟩
  cases h
  cases hc.symm.trans hbit

/-- Settles O47: the conditions follow the order of RXFRAME's cases. -/
theorem frameConditionsInOrder : Obligations.FrameConditionsInOrder := by
  refine ⟨fun s hpend => ?_, fun s c f hpend hc => ?_, fun s c f hpend hc hlen => ?_,
    fun s c q k p hpend hc => ?_⟩
  · rw [conditions_of_enabled_rxframe hpend (enabled_rxframe_iff.2 ⟨_, hpend, by simp⟩)]
    rfl
  · cases h : enabled .rxframe s with
    | false => simp [conditions, h]
    | true =>
      have hcase : rxCase s.receiverSeq (c :: f) = .control :=
        rxCase_eq_control_iff.2 ⟨c, f, rfl, (ArqReceive.isControl_eq_getLsbD c).trans hc⟩
      rw [conditions_of_enabled_rxframe hpend h, frameConditions, hcase]
  · rw [conditions_of_enabled_rxframe hpend (enabled_rxframe_of_data hpend hc), frameConditions,
      ArqReceive.rxCase_data_of_length_lt ((ArqReceive.isControl_eq_getLsbD c).trans hc) _ hlen]
  · rw [conditions_of_enabled_rxframe hpend (enabled_rxframe_of_data hpend hc), frameConditions,
      ArqReceive.rxCase_data ((ArqReceive.isControl_eq_getLsbD c).trans hc)]
    by_cases hsum : crc8 p = k
    · by_cases hseq : q = zext8 s.receiverSeq <;> simp [hsum, hseq]
    · simp [hsum]

theorem conditions_extract {s t : State} (h : exec .extract s = .next t) :
    conditions .extract s = extractConditions s.rxacc := by
  simp [conditions, enabled_of_exec_next h]

theorem damaged_mem_extractConditions {acc : Bytes} :
    .damaged ∈ extractConditions acc ↔ Scan.Discards acc := by
  simp only [extractConditions, Scan.Discards]
  split_ifs with hdiscard hkept hkept <;> simp_all

theorem incomplete_mem_extractConditions {acc : Bytes} :
    .incomplete ∈ extractConditions acc ↔ (extractFrom acc).2 = none ∧ (extractFrom acc).1 ≠ [] := by
  simp only [extractConditions]
  split_ifs with hdiscard hkept hkept <;> simp_all

theorem conditions_of_consumesSlot {i : Instr} {s : State} (hi : consumesSlot i = true)
    (h : enabled i s = true) : conditions i s = slotConditions s := by
  cases i with
  | ackwait | cbAck | cbNak | cbCtlrsv => simp only [conditions, h]; rfl
  | _ => cases hi

/-- Settles O48: what EXTRACT discards shows in its outcome, and a consumer reads the slot's class. -/
theorem extractAndSlotConditions : Obligations.ExtractAndSlotConditions := by
  refine ⟨fun s t h => ?_, fun i s t hi h => ?_, fun s t h => ?_⟩
  · have hconditions := conditions_extract h
    obtain ⟨-, rfl⟩ := execExtract_next_iff.1 h
    refine ⟨?_, fun hnone => ?_, fun f hsome => ?_⟩
    · rw [hconditions]
      exact incomplete_mem_extractConditions
    · rw [hconditions, damaged_mem_extractConditions]
      exact Scan.discards_iff_of_none (Prod.ext rfl hnone)
    · rw [hconditions, damaged_mem_extractConditions]
      simp only [Scan.extractIndexed_eq_extractFrom]
      exact Scan.discards_iff_of_some (Prod.ext rfl hsome)
  · rw [conditions_of_consumesSlot hi (enabled_of_exec_next h), slotConditions]
    by_cases hclass : ctlClass s.pcf = .malformed <;> simp [hclass]
  · simp [conditions, enabled_of_exec_next h]

end Sys2Proof.Operations

/-! PROOFS. The transport of a link (20_memory.md R58, 70_reset_and_hazards.md R245, R246). -/

namespace Sys2Proof.Transport

open Sys2Proof.Machine Sys2Proof.Safety

/-! ### Fates and bytes in flight (R58) -/

/-- Without replacements what is handed over was in flight, in the same order. -/
theorem applyFates_sublist {fs : List Fate} (hreplace : ∀ v, Fate.replace v ∉ fs) (bs : Bytes) :
    List.Sublist (applyFates fs bs) (bs.take fs.length) := by
  induction fs generalizing bs with
  | nil => exact List.nil_sublist _
  | cons f fs ih =>
    have htail : ∀ v, Fate.replace v ∉ fs := fun v hv => hreplace v (List.mem_cons_of_mem f hv)
    cases bs with
    | nil => exact List.nil_sublist _
    | cons b bs =>
      cases f with
      | keep => exact (ih htail bs).cons_cons b
      | replace v => exact absurd List.mem_cons_self (hreplace v)
      | drop => exact (ih htail bs).cons b

theorem length_applyFates_le (fs : List Fate) (bs : Bytes) :
    (applyFates fs bs).length ≤ min fs.length bs.length := by
  induction fs generalizing bs with
  | nil => simp [applyFates]
  | cons f fs ih =>
    cases bs with
    | nil => simp [applyFates]
    | cons b bs =>
      have htail := ih bs
      cases f <;> simp only [applyFates, List.length_cons] <;> omega

theorem flatten_dropBytes (n : Nat) (c : List Bytes) : (dropBytes n c).flatten = c.flatten.drop n := by
  induction c generalizing n with
  | nil => simp [dropBytes]
  | cons f c ih =>
    rw [dropBytes, List.flatten_cons, List.drop_append]
    by_cases hlen : f.length ≤ n
    · rw [if_pos hlen, ih, List.drop_eq_nil_of_le hlen, List.nil_append]
    · rw [if_neg hlen, List.flatten_cons, Nat.sub_eq_zero_of_le (Nat.le_of_not_le hlen), List.drop_zero]

/-- Settles O58: each fate concerns one byte, and the bytes resolved are the oldest. -/
theorem transportKeepsOrder : Obligations.TransportKeepsOrder :=
  ⟨fun _ bs hreplace => applyFates_sublist hreplace bs, length_applyFates_le, flatten_dropBytes⟩

theorem applyFates_keep (n : Nat) (bs : Bytes) :
    applyFates (List.replicate n .keep) bs = bs.take n := by
  induction n generalizing bs with
  | zero => rfl
  | succ n ih =>
    cases bs with
    | nil => rfl
    | cons b bs => exact congrArg (b :: ·) (ih bs)

theorem applyFates_drop (n : Nat) (bs : Bytes) : applyFates (List.replicate n .drop) bs = [] := by
  induction n generalizing bs with
  | zero => rfl
  | succ n ih =>
    cases bs with
    | nil => rfl
    | cons b bs => exact ih bs

theorem dropBytes_zero {c : List Bytes} (h : ∀ f ∈ c, f ≠ []) : dropBytes 0 c = c := by
  cases c with
  | nil => rfl
  | cons f c =>
    have hlen : ¬ f.length ≤ 0 := fun hle =>
      h f List.mem_cons_self (List.length_eq_zero_iff.1 (Nat.le_zero.1 hle))
    rw [dropBytes, if_neg hlen, List.drop_zero]

/-- Resolving as many bytes as the oldest frame has takes that frame out of the channel. -/
theorem dropBytes_length_head (f : Bytes) {c : List Bytes} (h : ∀ g ∈ c, g ≠ []) :
    dropBytes f.length (f :: c) = c := by
  rw [dropBytes, if_pos (Nat.le_refl _), Nat.sub_self, dropBytes_zero h]

/-! ### Runs that break delivery (R245, R246)

The frame of the one-byte chunk 00 is 7B 00 00 00 00 7D, its checksum 00. An ESC in the place of the
checksum makes the chunk byte the checksum; a lost byte does the same. What arrives is the frame of the
empty chunk, and its ACK ends the sender's call. -/

/-- Unbounded parameters, no timer. -/
def plain : Config.Params := { hasTimeout := false, accCap := none, maxPayload := none }

/-- A sends the payload 00, its frame meets the given fates, B answers and A takes the answer. -/
def sendZero (fates : List Fate) : List LinkEvent :=
  [.op .a (.send [0x00#8]), .op .a .txdata, .deliver .b fates, .op .b .extract, .op .b .rxframe,
   .deliver .a (List.replicate 5 .keep), .op .a .extract, .op .a .rxframe, .op .a .ackwait]

/-- The link the run ends in, or a fresh one if it does not come to its end. -/
def endOf (xs : List LinkEvent) : Link :=
  match linkRun xs (Link.fresh plain plain) with
  | .next l => l
  | .fault _ => Link.fresh plain plain
  | .refused _ => Link.fresh plain plain

/-- The run comes to its end. -/
def completes (xs : List LinkEvent) : Bool :=
  match linkRun xs (Link.fresh plain plain) with
  | .next _ => true
  | .fault _ => false
  | .refused _ => false

theorem linkRun_of_completes {xs : List LinkEvent} (h : completes xs = true) :
    linkRun xs (Link.fresh plain plain) = .next (endOf xs) := by
  unfold completes at h
  unfold endOf
  cases hrun : linkRun xs (Link.fresh plain plain) with
  | next l => rfl
  | fault f => simp [hrun] at h
  | refused r => simp [hrun] at h

/-- The checksum byte replaced by an ESC. -/
def replaced : List Fate := [.keep, .keep, .keep, .replace 0x5C#8, .keep, .keep]

/-- The checksum byte lost. -/
def dropped : List Fate := [.keep, .keep, .keep, .drop, .keep, .keep]

/-- The sender's call has returned and the receiver's client has something else. -/
def Broken (l : Link) : Prop := busy l.a = false ∧ ¬ l.b.dlvLog <+: requestedChunks l .a

theorem broken_of_dlvLog {l : Link} (hbusy : busy l.a = false) (hdlv : l.b.dlvLog = [[]])
    (hreq : requestedChunks l .a = [[0x00#8]]) : Broken l := by
  refine ⟨hbusy, ?_⟩
  rw [hdlv, hreq]
  decide

/-- Settles O60: the two runs are evaluated. -/
theorem corruptionCanBreakDelivery : Obligations.CorruptionCanBreakDelivery := by
  have hreplaced : Broken (endOf (sendZero replaced)) :=
    broken_of_dlvLog (by decide +kernel) (by decide +kernel) (by decide +kernel)
  have hdropped : Broken (endOf (sendZero dropped)) :=
    broken_of_dlvLog (by decide +kernel) (by decide +kernel) (by decide +kernel)
  refine ⟨⟨plain, plain, sendZero replaced, _, linkRun_of_completes (by decide +kernel), by decide, ?_, by decide,
    hreplaced⟩, ⟨plain, plain, sendZero dropped, _, linkRun_of_completes (by decide +kernel), by decide,
    by decide, ?_, hdropped⟩⟩
  · exact ⟨.deliver .b replaced, by decide, 0x5C#8, by decide⟩
  · simp [sendZero, fatesOf, dropped]

end Sys2Proof.Transport

/-! PROOFS. Delivery exactly once over a transport that loses whole frames (42_chunker.md R151,
44_arq_receive.md R191).

Everything on its way to a station is a list of whole messages: the slot, `rxpend`, `rxacc` and the channel,
oldest first. For each direction the data messages toward the receiver and the acknowledgments toward the
sender tell, with the two counters, which phase the outstanding chunk is in; every event of the link keeps
that, because a message is only ever moved, lost, taken from the head or added at the tail. -/

namespace Sys2Proof.Delivery

open Sys2Proof.Machine Sys2Proof.Safety Sys2Proof.Transition Sys2Proof.Transport

/-! ### Messages -/

/-- What a station sends over such a transport: data frames and acknowledgments. -/
inductive Msg where
  | data (q : Bit) (c : Bytes)
  | ack (q : Bit)

/-- The frame of a message on the wire (R81, R82). -/
def Msg.wire : Msg → Bytes
  | .data q c => mkdata q c
  | .ack q => mkctl Config.ctrlAck (zext8 q)

/-- The decoded bytes of a message (R84). -/
def Msg.decoded : Msg → Bytes
  | .data q c => 0x00#8 :: zext8 q :: crc8 c :: c
  | .ack q => ackBytes q

theorem extractFrom_wire_append (m : Msg) (rest : Bytes) :
    extractFrom (m.wire ++ rest) = (rest, some m.decoded) := by
  cases m with
  | data q c => exact Framer.extractFrom_frameOf_append _ c rest
  | ack q => exact Framer.extractFrom_frameOf_append _ [] rest

theorem wire_ne_nil (m : Msg) : m.wire ≠ [] := by
  cases m <;> exact List.cons_ne_nil _ _

theorem zext8_injective {p q : Bit} (h : zext8 p = zext8 q) : p = q := by
  revert p q; decide

theorem ack_decoded_injective {p q : Bit} (h : (Msg.ack p).decoded = (Msg.ack q).decoded) : p = q :=
  zext8_injective (List.cons.inj (List.cons.inj h).2).1

/-- The case of a message is never a runt, a mismatch or an empty frame (R182). -/
theorem rxCase_decoded (r : Bit) (m : Msg) : rxCase r m.decoded = match m with
    | .data q _ => if q = r then .accept else .duplicate
    | .ack _ => .control := by
  cases m with
  | data q c =>
    have hseq : zext8 q = zext8 r ↔ q = r := ⟨zext8_injective, congrArg zext8⟩
    simp [Msg.decoded, ArqReceive.rxCase_data (c := 0x00#8) rfl, hseq]
  | ack q => rfl

/-- The data messages among messages, by sequence number and chunk. -/
def dataOf (ms : List Msg) : List (Bit × Bytes) :=
  ms.filterMap fun | .data q c => some (q, c) | .ack _ => none

/-- The acknowledgments among messages. -/
def acksOf (ms : List Msg) : List Bit :=
  ms.filterMap fun | .data _ _ => none | .ack q => some q

@[simp] theorem dataOf_nil : dataOf [] = [] := rfl
@[simp] theorem dataOf_data (q : Bit) (c : Bytes) (ms : List Msg) :
    dataOf (.data q c :: ms) = (q, c) :: dataOf ms := rfl
@[simp] theorem dataOf_ack (q : Bit) (ms : List Msg) : dataOf (.ack q :: ms) = dataOf ms := rfl
@[simp] theorem dataOf_append (ms ns : List Msg) : dataOf (ms ++ ns) = dataOf ms ++ dataOf ns :=
  List.filterMap_append
@[simp] theorem acksOf_nil : acksOf [] = [] := rfl
@[simp] theorem acksOf_data (q : Bit) (c : Bytes) (ms : List Msg) : acksOf (.data q c :: ms) = acksOf ms := rfl
@[simp] theorem acksOf_ack (q : Bit) (ms : List Msg) : acksOf (.ack q :: ms) = q :: acksOf ms := rfl
@[simp] theorem acksOf_append (ms ns : List Msg) : acksOf (ms ++ ns) = acksOf ms ++ acksOf ns :=
  List.filterMap_append

/-! ### The messages on their way to a station -/

/-- The messages on their way to a station, by the place they have reached. -/
structure Flow where
  slot : Option Bit
  pend : Option Msg
  acc : List Msg
  chan : List Msg

/-- All of them, the oldest first. -/
def Flow.msgs (F : Flow) : List Msg := F.slot.toList.map .ack ++ (F.pend.toList ++ (F.acc ++ F.chan))

/-- A station and the channel toward it hold exactly these messages. -/
structure Flow.Shows (F : Flow) (s : State) (ch : List Bytes) : Prop where
  slotFull : s.pcfFull = F.slot.isSome
  slot : ∀ q, F.slot = some q → s.pcf = (Msg.ack q).decoded
  pend : s.rxpend = F.pend.map Msg.decoded
  acc : s.rxacc = F.acc.flatMap Msg.wire
  chan : ch = F.chan.map Msg.wire

/-- Only the slot, `rxpend` and `rxacc` of the station count. -/
theorem Flow.Shows.congr {F : Flow} {s t : State} {ch : List Bytes} (h : F.Shows s ch)
    (hfull : t.pcfFull = s.pcfFull) (hpcf : t.pcf = s.pcf) (hpend : t.rxpend = s.rxpend)
    (hacc : t.rxacc = s.rxacc) : F.Shows t ch :=
  ⟨hfull.trans h.slotFull, fun q hq => hpcf.trans (h.slot q hq), hpend.trans h.pend, hacc.trans h.acc, h.chan⟩

/-! ### One direction of the link -/

/-- The phase of a direction: the sender's state, counter and held frame, the receiver's counter, the data
messages toward the receiver, the acknowledgments toward the sender, and the chunk that is sent and not
yet delivered, if there is one. -/
inductive Phase (arq : Arq) (seq : Bit) (hold : Bytes) (r : Bit) (D : List (Bit × Bytes)) (A : List Bit) :
    List Bytes → Prop
  /-- Nothing is outstanding: what is in flight is old. -/
  | idle (harq : arq = .idle) (hr : r = seq) (hdata : ∀ d ∈ D, d.1 ≠ seq) (hacks : ∀ q ∈ A, q ≠ seq) :
      Phase arq seq hold r D A []
  /-- The chunk is on its way, behind old frames, and not acknowledged. -/
  | sent {c : Bytes} (harq : arq = .awaitingAck) (hhold : hold = mkdata seq c) (hr : r = seq)
      (hdata : ∀ d ∈ D, d.1 = seq → d.2 = c) (horder : D.Pairwise fun d e => d.1 = seq → e.1 = seq)
      (hacks : ∀ q ∈ A, q ≠ seq) : Phase arq seq hold r D A [c]
  /-- The chunk has been delivered: only copies of it are in flight, and old acknowledgments are in front
  of its own. -/
  | taken {c : Bytes} (harq : arq = .awaitingAck) (hhold : hold = mkdata seq c) (hr : r ≠ seq)
      (hdata : ∀ d ∈ D, d = (seq, c)) (horder : A.Pairwise fun p q => p = seq → q = seq) :
      Phase arq seq hold r D A []

/-- A direction of the link, sender `x` and receiver `y`: what the sender's client has asked for is what
the receiver's client has, the chunk on its way, and what is still in the queue. -/
def Agrees (x y : State) (D : List (Bit × Bytes)) (A : List Bit) (requests : List Bytes) : Prop :=
  ∃ owed, Phase x.arq x.senderSeq x.txhold y.receiverSeq D A owed ∧
    requests.flatMap chunksOf = y.dlvLog ++ owed ++ if x.sqValid then chunksOf x.sendq else []

section Direction

variable {x y : State} {D : List (Bit × Bytes)} {A : List Bit} {requests : List Bytes}

theorem complement_eq_of_ne {r s : Bit} (h : r ≠ s) : complement r = s := by
  revert r s; decide

theorem eq_complement_of_ne {r s : Bit} (h : r ≠ s) : r = complement s := by
  revert r s; decide

theorem ne_complement (s : Bit) : s ≠ complement s := (Rules.complement_ne s).symm

/-- Losing messages keeps a direction. -/
theorem agrees_sublist {D' : List (Bit × Bytes)} {A' : List Bit} (hD : List.Sublist D' D)
    (hA : List.Sublist A' A) (h : Agrees x y D A requests) : Agrees x y D' A' requests := by
  obtain ⟨owed, hphase, hlog⟩ := h
  refine ⟨owed, ?_, hlog⟩
  cases hphase with
  | idle harq hr hdata hacks =>
    exact .idle harq hr (fun d hd => hdata d (hD.subset hd)) fun q hq => hacks q (hA.subset hq)
  | sent harq hhold hr hdata horder hacks =>
    exact .sent harq hhold hr (fun d hd => hdata d (hD.subset hd)) (horder.sublist hD)
      fun q hq => hacks q (hA.subset hq)
  | taken harq hhold hr hdata horder =>
    exact .taken harq hhold hr (fun d hd => hdata d (hD.subset hd)) (horder.sublist hA)

/-- SEND: the payload's chunks are asked for and stand in the queue. -/
theorem agrees_load (p : Bytes) (hbusy : busy x = false) (h : Agrees x y D A requests) :
    Agrees { x with sendq := p, sqValid := true } y D A (requests ++ [p]) := by
  obtain ⟨hvalid, -⟩ := busy_eq_false_iff.1 hbusy
  obtain ⟨owed, hphase, hlog⟩ := h
  refine ⟨owed, hphase, ?_⟩
  simp only [hvalid, Bool.false_eq_true, if_false, List.append_nil] at hlog
  simp [hlog]

/-- TXDATA: the head of the queue's chunks is on its way, behind data messages that are all old. -/
theorem agrees_chunk (hvalid : x.sqValid = true) (hidle : x.arq = .idle) (h : Agrees x y D A requests) :
    Agrees (chunkSent x) y (D ++ [(x.senderSeq, (takeChunk x.sendq).1)]) A requests := by
  obtain ⟨owed, hphase, hlog⟩ := h
  cases hphase with
  | sent harq => cases hidle.symm.trans harq
  | taken harq => cases hidle.symm.trans harq
  | idle _ hr hdata hacks =>
    refine ⟨[(takeChunk x.sendq).1], .sent rfl rfl hr ?_ ?_ hacks, ?_⟩
    · intro d hd hseq
      obtain hd | hd := List.mem_append.1 hd
      · exact absurd hseq (hdata d hd)
      · rw [List.mem_singleton.1 hd]
    · refine List.pairwise_append.2 ⟨?_, List.pairwise_singleton _ _, ?_⟩
      · exact List.pairwise_of_forall_mem_list fun d hd _ _ hseq => absurd hseq (hdata d hd)
      · exact fun d hd _ _ hseq => absurd hseq (hdata d hd)
    · rw [hvalid, if_pos rfl, Chunker.chunksOf_eq_takeChunk x.sendq] at hlog
      rw [hlog, List.append_nil, List.append_assoc]
      rfl

/-- ACKWAIT on the matching ACK: the chunk had been delivered, and what is in flight becomes old. -/
theorem agrees_acknowledge (hwait : x.arq = .awaitingAck) (h : Agrees x y D (x.senderSeq :: A) requests) :
    Agrees (acknowledged (emptySlot x)) y D A requests := by
  obtain ⟨owed, hphase, hlog⟩ := h
  cases hphase with
  | idle harq => cases hwait.symm.trans harq
  | sent _ _ _ _ _ hacks => exact absurd rfl (hacks _ List.mem_cons_self)
  | taken _ _ hr hdata horder =>
    refine ⟨[], .idle rfl (eq_complement_of_ne hr) (fun d hd => ?_) (fun q hq => ?_), hlog⟩
    · rw [hdata d hd]
      exact ne_complement _
    · rw [(List.pairwise_cons.1 horder).1 q hq rfl]
      exact ne_complement _

/-- A retransmission is one more copy of the chunk on its way. -/
theorem agrees_resend (hwait : x.arq = .awaitingAck) (h : Agrees x y D A requests) :
    ∃ c, x.txhold = mkdata x.senderSeq c ∧ Agrees x y (D ++ [(x.senderSeq, c)]) A requests := by
  obtain ⟨owed, hphase, hlog⟩ := h
  cases hphase with
  | idle harq => cases hwait.symm.trans harq
  | @sent c harq hhold hr hdata horder hacks =>
    refine ⟨c, hhold, [c], .sent harq hhold hr (fun d hd hseq => ?_) ?_ hacks, hlog⟩
    · obtain hd | hd := List.mem_append.1 hd
      · exact hdata d hd hseq
      · rw [List.mem_singleton.1 hd]
    · refine List.pairwise_append.2 ⟨horder, List.pairwise_singleton _ _, fun d _ e he _ => ?_⟩
      rw [List.mem_singleton.1 he]
  | @taken c harq hhold hr hdata horder =>
    refine ⟨c, hhold, [], .taken harq hhold hr (fun d hd => ?_) horder, hlog⟩
    obtain hd | hd := List.mem_append.1 hd
    · exact hdata d hd
    · exact List.mem_singleton.1 hd

/-- RXFRAME on a duplicate: the ACK of the complement is old before the chunk is delivered and its own
after, the one the phase allows. -/
theorem agrees_duplicate {q : Bit} {c : Bytes}
    (h : Agrees x y ((q, c) :: D) A requests) : Agrees x y D (A ++ [complement y.receiverSeq]) requests := by
  obtain ⟨owed, hphase, hlog⟩ := h
  have hacks' (hr : y.receiverSeq = x.senderSeq) (hacks : ∀ p ∈ A, p ≠ x.senderSeq) :
      ∀ p ∈ A ++ [complement y.receiverSeq], p ≠ x.senderSeq := by
    intro p hp
    obtain hp | hp := List.mem_append.1 hp
    · exact hacks p hp
    · rw [List.mem_singleton.1 hp, hr]
      exact (ne_complement _).symm
  refine ⟨owed, ?_, hlog⟩
  cases hphase with
  | idle harq hr hdata hacks =>
    exact .idle harq hr (fun d hd => hdata d (List.mem_cons_of_mem _ hd)) (hacks' hr hacks)
  | sent harq hhold hr hdata horder hacks =>
    exact .sent harq hhold hr (fun d hd => hdata d (List.mem_cons_of_mem _ hd)) (List.pairwise_cons.1 horder).2
      (hacks' hr hacks)
  | taken harq hhold hr hdata horder =>
    refine .taken harq hhold hr (fun d hd => hdata d (List.mem_cons_of_mem _ hd)) ?_
    refine List.pairwise_append.2 ⟨horder, List.pairwise_singleton _ _, fun p _ p' hp' _ => ?_⟩
    rw [List.mem_singleton.1 hp']
    exact complement_eq_of_ne hr

/-- RXFRAME on the expected frame: it is the chunk on its way, everything behind it is a copy, and its ACK
is the first of its kind. -/
theorem agrees_accept {c : Bytes} {f : Bytes} (h : Agrees x y ((y.receiverSeq, c) :: D) A requests) :
    Agrees x (toggleReceiver (transmit f (deliver c (clearPend y)))) D (A ++ [y.receiverSeq]) requests := by
  obtain ⟨owed, hphase, hlog⟩ := h
  cases hphase with
  | idle _ hr hdata => exact absurd hr (hdata _ List.mem_cons_self)
  | taken _ _ hr hdata =>
    have hhead := hdata _ List.mem_cons_self
    exact absurd (Prod.mk.inj hhead).1 hr
  | @sent c' harq hhold hr hdata horder hacks =>
    obtain rfl : c = c' := hdata _ List.mem_cons_self hr
    refine ⟨[], .taken harq hhold ?_ (fun d hd => ?_) ?_, by simpa using hlog⟩
    · rw [← hr]
      exact Rules.complement_ne _
    · have hseq : d.1 = x.senderSeq := (List.pairwise_cons.1 horder).1 d hd hr
      exact Prod.ext hseq (hdata d (List.mem_cons_of_mem _ hd) hseq)
    · refine List.pairwise_append.2 ⟨?_, List.pairwise_singleton _ _, fun p _ p' hp' _ => ?_⟩
      · exact List.pairwise_of_forall_mem_list fun p hp _ _ hseq => absurd hseq (hacks p hp)
      · rw [List.mem_singleton.1 hp', hr]

/-- What a direction says of the two clients. -/
theorem delivered_of_agrees (h : Agrees x y D A requests) :
    y.dlvLog <+: requests.flatMap chunksOf ∧ (busy x = false → y.dlvLog = requests.flatMap chunksOf) := by
  obtain ⟨owed, hphase, hlog⟩ := h
  refine ⟨⟨owed ++ if x.sqValid then chunksOf x.sendq else [], by rw [hlog, List.append_assoc]⟩,
    fun hbusy => ?_⟩
  obtain ⟨hvalid, hidle⟩ := busy_eq_false_iff.1 hbusy
  cases hphase with
  | sent harq => cases hidle.symm.trans harq
  | idle | taken => simp [hlog, hvalid]

end Direction

/-! ### Two stations and what is between them -/

/-- The link seen from one end: the messages on their way to either station, and the two directions. -/
structure Joint (x y : State) (F G : Flow) (towardX towardY : List Bytes) (requestsX requestsY : List Bytes) :
    Prop where
  shows_x : F.Shows x towardX
  shows_y : G.Shows y towardY
  sends : Agrees x y (dataOf G.msgs) (acksOf F.msgs) requestsX
  receives : Agrees y x (dataOf F.msgs) (acksOf G.msgs) requestsY

theorem Joint.symm {x y : State} {F G : Flow} {cx cy rx ry : List Bytes} (h : Joint x y F G cx cy rx ry) :
    Joint y x G F cy cx ry rx :=
  ⟨h.shows_y, h.shows_x, h.receives, h.sends⟩

/-- More messages in the channel. -/
def Flow.extend (F : Flow) (out : List Msg) : Flow := { F with chan := F.chan ++ out }

theorem Flow.msgs_extend (F : Flow) (out : List Msg) : (F.extend out).msgs = F.msgs ++ out := by
  simp [Flow.extend, Flow.msgs]

theorem Flow.Shows.extend {F : Flow} {s : State} {ch : List Bytes} (h : F.Shows s ch) (out : List Msg) :
    (F.extend out).Shows s (ch ++ out.map Msg.wire) :=
  { h with chan := by rw [h.chan, Flow.extend, List.map_append] }

/-- What holds of the link after an operation of station `x` that leads to `t`. -/
def Follows (x t y : State) (cx cy rx ry : List Bytes) : Prop :=
  ∃ F G, Joint t y F G cx (cy ++ sentBy x t) rx ry

section Operation

variable {x t y : State} {F F' G : Flow} {cx cy rx ry : List Bytes}

/-- An operation moves messages on their way to its station and adds its transmissions to the other
channel. -/
theorem follows_of_messages (hy : G.Shows y cy) (out : List Msg) (hx : F'.Shows t cx)
    (hlog : t.txLog = x.txLog ++ out.map Msg.wire)
    (hsends : Agrees t y (dataOf G.msgs ++ dataOf out) (acksOf F'.msgs) rx)
    (hreceives : Agrees y t (dataOf F'.msgs) (acksOf G.msgs ++ acksOf out) ry) : Follows x t y cx cy rx ry := by
  have hsent : sentBy x t = out.map Msg.wire := by rw [sentBy, hlog, List.drop_left]
  refine ⟨F', G.extend out, hx, ?_, ?_, ?_⟩
  · rw [hsent]
    exact hy.extend out
  · rwa [Flow.msgs_extend, dataOf_append]
  · rwa [Flow.msgs_extend, acksOf_append]

theorem follows_load (h : Joint x y F G cx cy rx ry) (hbusy : busy x = false) (p : Bytes) :
    Follows x { x with sendq := p, sqValid := true } y cx cy (rx ++ [p]) ry := by
  obtain ⟨hx, hy, hsends, hreceives⟩ := h
  refine follows_of_messages hy [] (hx.congr rfl rfl rfl rfl) (by simp) ?_ ?_
  · rw [dataOf_nil, List.append_nil]
    exact agrees_load p hbusy hsends
  · rw [acksOf_nil, List.append_nil]
    exact hreceives

theorem follows_chunk (h : Joint x y F G cx cy rx ry) (hvalid : x.sqValid = true) (hidle : x.arq = .idle) :
    Follows x (chunkSent x) y cx cy rx ry := by
  obtain ⟨hx, hy, hsends, hreceives⟩ := h
  refine follows_of_messages hy [.data x.senderSeq (takeChunk x.sendq).1]
    (hx.congr rfl rfl rfl rfl) rfl ?_ ?_
  · exact agrees_chunk hvalid hidle hsends
  · rw [acksOf_data, acksOf_nil, List.append_nil]
    exact hreceives

/-- The held frame is sent once more, with the slot as it was or emptied. -/
theorem follows_resend (hy : G.Shows y cy) (hwait : x.arq = .awaitingAck) (hx : F'.Shows t cx)
    (ht : t = transmit x.txhold x ∨ t = transmit x.txhold (emptySlot x))
    (hsends : Agrees x y (dataOf G.msgs) (acksOf F'.msgs) rx)
    (hreceives : Agrees y x (dataOf F'.msgs) (acksOf G.msgs) ry) : Follows x t y cx cy rx ry := by
  obtain ⟨c, hhold, hsends'⟩ := agrees_resend hwait hsends
  refine follows_of_messages hy [.data x.senderSeq c] hx ?_ ?_ ?_
  · obtain rfl | rfl := ht <;> simp [hhold, Msg.wire]
  · obtain rfl | rfl := ht <;> exact hsends'
  · rw [acksOf_data, acksOf_nil, List.append_nil]
    obtain rfl | rfl := ht <;> exact hreceives

theorem follows_expire (h : Joint x y F G cx cy rx ry) (hwait : x.arq = .awaitingAck) :
    Follows x (transmit x.txhold x) y cx cy rx ry := by
  obtain ⟨hx, hy, hsends, hreceives⟩ := h
  exact follows_resend hy hwait (hx.congr rfl rfl rfl rfl) (.inl rfl) hsends hreceives

/-- A full slot holds the oldest acknowledgment, and emptying it takes that from the head. -/
theorem exists_of_slotFull (hx : F.Shows x cx) (hfull : x.pcfFull = true) :
    ∃ (q : Bit) (F' : Flow), x.pcf = (Msg.ack q).decoded ∧ F'.Shows (emptySlot x) cx ∧
      F.msgs = .ack q :: F'.msgs := by
  obtain ⟨slot, pend, acc, chan⟩ := F
  cases slot with
  | none => cases hfull.symm.trans hx.slotFull
  | some q => exact ⟨q, ⟨none, pend, acc, chan⟩, hx.slot q rfl, ⟨rfl, nofun, hx.pend, hx.acc, hx.chan⟩, rfl⟩

theorem follows_acknowledge (h : Joint x y F G cx cy rx ry) (hwait : x.arq = .awaitingAck)
    (hfull : x.pcfFull = true) (hack : x.pcf = (Msg.ack x.senderSeq).decoded) :
    Follows x (acknowledged (emptySlot x)) y cx cy rx ry := by
  obtain ⟨hx, hy, hsends, hreceives⟩ := h
  obtain ⟨q, F', hpcf, hx', hmsgs⟩ := exists_of_slotFull hx hfull
  obtain rfl : q = x.senderSeq := ack_decoded_injective (hpcf.symm.trans hack)
  rw [hmsgs, acksOf_ack] at hsends
  rw [hmsgs, dataOf_ack] at hreceives
  refine follows_of_messages hy [] (hx'.congr rfl rfl rfl rfl) (by simp) ?_ ?_
  · rw [dataOf_nil, List.append_nil]
    exact agrees_acknowledge hwait hsends
  · rw [acksOf_nil, List.append_nil]
    exact hreceives

theorem follows_retransmit (h : Joint x y F G cx cy rx ry) (hwait : x.arq = .awaitingAck)
    (hfull : x.pcfFull = true) : Follows x (transmit x.txhold (emptySlot x)) y cx cy rx ry := by
  obtain ⟨hx, hy, hsends, hreceives⟩ := h
  obtain ⟨q, F', -, hx', hmsgs⟩ := exists_of_slotFull hx hfull
  rw [hmsgs, acksOf_ack] at hsends
  rw [hmsgs, dataOf_ack] at hreceives
  exact follows_resend hy hwait (hx'.congr rfl rfl rfl rfl) (.inr rfl)
    (agrees_sublist (List.Sublist.refl _) (List.sublist_cons_self _ _) hsends) hreceives

/-- An operation that transmits nothing and changes neither direction's registers only moves messages. -/
theorem follows_of_msgs_eq (h : Joint x y F G cx cy rx ry) (hx : F'.Shows t cx) (hmsgs : F'.msgs = F.msgs)
    (hlog : t.txLog = x.txLog) (hsends : Agrees x y (dataOf G.msgs) (acksOf F.msgs) rx →
      Agrees t y (dataOf G.msgs) (acksOf F.msgs) rx)
    (hreceives : Agrees y x (dataOf F.msgs) (acksOf G.msgs) ry → Agrees y t (dataOf F.msgs) (acksOf G.msgs) ry) :
    Follows x t y cx cy rx ry := by
  refine follows_of_messages h.shows_y [] hx (by simp [hlog]) ?_ ?_
  · rw [dataOf_nil, List.append_nil, hmsgs]
    exact hsends h.sends
  · rw [acksOf_nil, List.append_nil, hmsgs]
    exact hreceives h.receives

/-- EXTRACT takes the oldest message of the accumulator, if there is one. -/
theorem follows_extract (h : Joint x y F G cx cy rx ry) (hpend : x.rxpend = none) :
    Follows x (extracted x) y cx cy rx ry := by
  have hx := h.shows_x
  obtain ⟨slot, pend, acc, chan⟩ := F
  cases pend with
  | some m => cases hpend.symm.trans hx.pend
  | none =>
    cases acc with
    | nil =>
      have hextract : extractFrom x.rxacc = ([], none) := by rw [hx.acc]; rfl
      rw [extracted, hextract]
      exact follows_of_msgs_eq (F' := ⟨slot, none, [], chan⟩) h ⟨hx.slotFull, hx.slot, rfl, rfl, hx.chan⟩
        rfl rfl id id
    | cons m acc =>
      have hextract : extractFrom x.rxacc = (acc.flatMap Msg.wire, some m.decoded) := by
        rw [hx.acc]
        exact extractFrom_wire_append m _
      rw [extracted, hextract]
      exact follows_of_msgs_eq (F' := ⟨slot, some m, acc, chan⟩) h ⟨hx.slotFull, hx.slot, rfl, rfl, hx.chan⟩
        rfl rfl id id

/-- A frame in `rxpend` is a message. -/
theorem exists_of_rxpend {f : Bytes} (hx : F.Shows x cx) (hpend : x.rxpend = some f) :
    ∃ m, F.pend = some m ∧ m.decoded = f :=
  Option.map_eq_some_iff.1 (hx.pend.symm.trans hpend)

theorem follows_store {c : Byte} {g : Bytes} (h : Joint x y F G cx cy rx ry)
    (hpend : x.rxpend = some (c :: g)) (hcontrol : isControl c = true) (hempty : x.pcfFull = false) :
    Follows x (fillSlot (c :: g) (clearPend x)) y cx cy rx ry := by
  have hx := h.shows_x
  obtain ⟨m, hm, hdecoded⟩ := exists_of_rxpend hx hpend
  obtain ⟨slot, pend, acc, chan⟩ := F
  cases slot with
  | some q => cases hempty.symm.trans hx.slotFull
  | none =>
    cases hm
    cases m with
    | data q p =>
      cases hdecoded
      cases hcontrol
    | ack q =>
      refine follows_of_msgs_eq (F' := ⟨some q, none, acc, chan⟩) h ⟨rfl, ?_, rfl, hx.acc, hx.chan⟩ rfl rfl id id
      rintro q' ⟨⟩
      exact hdecoded.symm

/-- A data message in `rxpend` is the oldest on its way: only acknowledgments stand in front of it. -/
theorem exists_of_data_pend {q : Bit} {p : Bytes} (hx : F.Shows x cx) (hpend : F.pend = some (.data q p)) :
    ∃ F' : Flow, F'.Shows (clearPend x) cx ∧ dataOf F.msgs = (q, p) :: dataOf F'.msgs ∧
      acksOf F.msgs = acksOf F'.msgs := by
  obtain ⟨slot, pend, acc, chan⟩ := F
  cases hpend
  refine ⟨⟨slot, none, acc, chan⟩, ⟨hx.slotFull, hx.slot, rfl, hx.acc, hx.chan⟩, ?_, ?_⟩
  · cases slot <;> simp [Flow.msgs]
  · cases slot <;> simp [Flow.msgs]

theorem follows_reacknowledge {f : Bytes} (h : Joint x y F G cx cy rx ry) (hpend : x.rxpend = some f)
    (hcase : rxCase x.receiverSeq f = .duplicate) :
    Follows x (transmit (mkctl Config.ctrlAck (zext8 (complement x.receiverSeq))) (clearPend x)) y cx cy rx ry := by
  obtain ⟨hx, hy, hsends, hreceives⟩ := h
  obtain ⟨m, hm, rfl⟩ := exists_of_rxpend hx hpend
  cases m with
  | ack q => cases hcase
  | data q p =>
    obtain ⟨F', hx', hdata, hacks⟩ := exists_of_data_pend hx hm
    rw [hacks] at hsends
    rw [hdata] at hreceives
    refine follows_of_messages hy [.ack (complement x.receiverSeq)]
      (hx'.congr rfl rfl rfl rfl) rfl ?_ (agrees_duplicate hreceives)
    rw [dataOf_ack, dataOf_nil, List.append_nil]
    exact hsends

theorem follows_accept {c : Byte} {p : Bytes} (h : Joint x y F G cx cy rx ry)
    (hpend : x.rxpend = some (c :: zext8 x.receiverSeq :: crc8 p :: p)) (hdata : isControl c = false) :
    Follows x (toggleReceiver (transmit (mkctl Config.ctrlAck (zext8 x.receiverSeq)) (deliver p (clearPend x))))
      y cx cy rx ry := by
  obtain ⟨hx, hy, hsends, hreceives⟩ := h
  obtain ⟨m, hm, hdecoded⟩ := exists_of_rxpend hx hpend
  cases m with
  | ack q =>
    obtain rfl : 0x11#8 = c := (List.cons.inj hdecoded).1
    cases hdata
  | data q p' =>
    obtain ⟨-, hq, -, rfl⟩ : _ ∧ zext8 q = zext8 x.receiverSeq ∧ _ ∧ p' = p := by
      simpa [Msg.decoded] using hdecoded
    obtain rfl := zext8_injective hq
    obtain ⟨F', hx', hdataOf, hacks⟩ := exists_of_data_pend hx hm
    rw [hacks] at hsends
    rw [hdataOf] at hreceives
    refine follows_of_messages hy [.ack x.receiverSeq]
      (hx'.congr rfl rfl rfl rfl) rfl ?_ (agrees_accept hreceives)
    rw [dataOf_ack, dataOf_nil, List.append_nil]
    exact hsends

/-- The payloads the link records when an instruction completes. -/
def accepted : Instr → List Bytes
  | .send p => [p]
  | _ => []

theorem accepted_eq_nil {i : Instr} (h : ∀ p, i ≠ .send p) : accepted i = [] := by
  cases i with
  | send p => exact absurd rfl (h p)
  | _ => rfl

/-- Every operation but RESET and an arrival keeps the link's state of affairs. -/
theorem follows_of_moves {i : Instr} (h : Joint x y F G cx cy rx ry) (hmove : Moves i x t) (hreset : i ≠ .reset)
    (hline : lineInBytes i = none) : Follows x t y cx cy (rx ++ accepted i) ry := by
  have hrest (hfollows : Follows x t y cx cy rx ry) (hi : ∀ p, i ≠ .send p) :
      Follows x t y cx cy (rx ++ accepted i) ry := by
    rwa [accepted_eq_nil hi, List.append_nil]
  cases hmove with
  | reset => exact absurd rfl hreset
  | load hbusy => exact follows_load h hbusy _
  | chunk hvalid hidle => exact hrest (follows_chunk h hvalid hidle) nofun
  | acknowledge hi hwait hfull hack =>
    exact hrest (follows_acknowledge h hwait hfull hack) (by rintro p rfl; cases hi)
  | retransmit hi hwait hfull => exact hrest (follows_retransmit h hwait hfull) (by rintro p rfl; cases hi)
  | expire hwait => exact hrest (follows_expire h hwait) nofun
  | arrive hi => cases hline.symm.trans hi
  | extract hpend => exact hrest (follows_extract h hpend) nofun
  | discard hi hpend =>
    obtain ⟨m, -, hdecoded⟩ := exists_of_rxpend h.shows_x hpend
    cases m <;> cases hdecoded
  | store hi hpend hcontrol hempty =>
    exact hrest (follows_store h hpend hcontrol hempty) (by rintro p rfl; cases hi)
  | reject hi hpend hcase =>
    obtain ⟨m, -, rfl⟩ := exists_of_rxpend h.shows_x hpend
    rw [rxCase_decoded] at hcase
    cases m with
    | data q p => by_cases hq : q = x.receiverSeq <;> simp [hq] at hcase
    | ack q => simp at hcase
  | reacknowledge hi hpend hcase =>
    exact hrest (follows_reacknowledge h hpend hcase) (by rintro p rfl; cases hi)
  | accept hi hpend hdata => exact hrest (follows_accept h hpend hdata) (by rintro p rfl; cases hi)
  | value hi =>
    have hx := h.shows_x
    exact hrest (follows_of_msgs_eq h (hx.congr rfl rfl rfl rfl) rfl rfl id id)
      (by rintro p rfl; cases hi)

/-! ### The transport (R58) -/

/-- The oldest frame of the channel is handed over whole or lost; nothing is handed over where nothing is
in flight. -/
theorem joint_deliver {fates : List Fate} (h : Joint x y F G cx cy rx ry)
    (hfates : fates = List.replicate (cx.headD []).length .keep ∨
      fates = List.replicate (cx.headD []).length .drop) :
    ∃ F', Joint { x with rxacc := x.rxacc ++ applyFates fates cx.flatten } y F' G (dropBytes fates.length cx) cy
      rx ry := by
  have hx := h.shows_x
  obtain ⟨slot, pend, acc, chan⟩ := F
  obtain rfl := hx.chan
  cases chan with
  | nil =>
    obtain rfl : fates = [] := by simpa using hfates
    have hacc : x.rxacc ++ applyFates [] (List.map Msg.wire []).flatten = x.rxacc := List.append_nil _
    exact ⟨_, hx.congr rfl rfl rfl hacc, h.shows_y, h.sends, h.receives⟩
  | cons m chan =>
    have hchan : ∀ f ∈ chan.map Msg.wire, f ≠ [] := by
      intro f hf
      obtain ⟨m', -, rfl⟩ := List.mem_map.1 hf
      exact wire_ne_nil m'
    obtain rfl | rfl := hfates
    · have hbatch : applyFates (List.replicate m.wire.length .keep) (m.wire ++ (chan.map Msg.wire).flatten) =
          m.wire := by rw [applyFates_keep, List.take_left]
      have hmoved : (Flow.mk slot pend (acc ++ [m]) chan).msgs = (Flow.mk slot pend acc (m :: chan)).msgs := by
        simp [Flow.msgs]
      refine ⟨⟨slot, pend, acc ++ [m], chan⟩, ⟨hx.slotFull, hx.slot, hx.pend, ?_, ?_⟩, h.shows_y, ?_, ?_⟩
      · simp [hbatch, hx.acc]
      · simp [dropBytes_length_head _ hchan]
      · rw [hmoved]
        exact h.sends
      · rw [hmoved]
        exact h.receives
    · have hlost : List.Sublist (Flow.mk slot pend acc chan).msgs (Flow.mk slot pend acc (m :: chan)).msgs := by
        simp [Flow.msgs]
      refine ⟨⟨slot, pend, acc, chan⟩, ⟨hx.slotFull, hx.slot, hx.pend, ?_, ?_⟩, h.shows_y, ?_, ?_⟩
      · simp [applyFates_drop, hx.acc]
      · simp [dropBytes_length_head _ hchan]
      · exact agrees_sublist (List.Sublist.refl _) (hlost.filterMap _) h.sends
      · exact agrees_sublist (hlost.filterMap _) (List.Sublist.refl _) h.receives

end Operation

/-! ### Runs of the link -/

/-- The state of affairs of a link, seen from an end. -/
def LinkAgrees (l : Link) (e : Side) : Prop :=
  ∃ F G, Joint (l.station e) (l.station e.other) F G (l.toward e) (l.toward e.other) (l.requests e)
    (l.requests e.other)

theorem linkAgrees_other {l : Link} {e : Side} (h : LinkAgrees l e) : LinkAgrees l e.other := by
  obtain ⟨F, G, h⟩ := h
  cases e <;> exact ⟨G, F, h.symm⟩

theorem linkAgrees_all {l : Link} {e : Side} (h : LinkAgrees l e) (e' : Side) : LinkAgrees l e' := by
  cases e <;> cases e'
  · exact h
  · exact linkAgrees_other h
  · exact linkAgrees_other h
  · exact h

/-- A station has moved, and the payload of a SEND is recorded: the other station, the channel toward this
one and the other's requests are as before. -/
theorem linkAgrees_moved_record {l : Link} {e : Side} {t : State} {i : Instr}
    (h : Follows (l.station e) t (l.station e.other) (l.toward e) (l.toward e.other)
      (l.requests e ++ accepted i) (l.requests e.other)) : LinkAgrees ((l.moved e t).record e i) e := by
  cases i with
  | send p => cases e <;> exact h
  | _ =>
    simp only [accepted, List.append_nil] at h
    cases e <;> exact h

theorem lineInBytes_eq_none_of_not_injects {i : Instr} (h : injects i = false) : lineInBytes i = none := by
  cases i with
  | rxbytes | wbStart | wbEnd | wbEsc | wbLit | frameNak0 | frameNak1 | frameAck0 | frameAck1 => cases h
  | _ => rfl

theorem linkAgrees_op {l l' : Link} {e : Side} {i : Instr} (hagrees : LinkAgrees l e) (hreset : i ≠ .reset)
    (h : linkStep (.op e i) l = .next l') : LinkAgrees l' e := by
  obtain ⟨F, G, hjoint⟩ := hagrees
  cases hinject : injects i with
  | true => simp [linkStep, hinject] at h
  | false =>
    cases hexec : exec i (l.station e) with
    | fault f => simp [linkStep, hinject, hexec] at h
    | refused r => simp [linkStep, hinject, hexec] at h
    | next t =>
      obtain rfl : (l.moved e t).record e i = l' := by simpa [linkStep, hinject, hexec] using h
      exact linkAgrees_moved_record
        (follows_of_moves hjoint (moves_of_exec hexec) hreset (lineInBytes_eq_none_of_not_injects hinject))

/-- A delivery transmits nothing, so that only the channel it takes from moves. -/
theorem linkAgrees_moved_setToward {l : Link} {e : Side} {acc : Bytes} {ch : List Bytes} {F G : Flow}
    (h : Joint { l.station e with rxacc := acc } (l.station e.other) F G ch (l.toward e.other) (l.requests e)
      (l.requests e.other)) :
    LinkAgrees ((l.moved e { l.station e with rxacc := acc }).setToward e ch) e := by
  have hsent : sentBy (l.station e) { l.station e with rxacc := acc } = [] := List.drop_length
  refine ⟨F, G, ?_⟩
  rw [Link.moved, hsent, List.append_nil]
  cases e <;> exact h

theorem linkAgrees_deliver {l l' : Link} {e : Side} {fates : List Fate} (hagrees : LinkAgrees l e)
    (hwhole : wholeFrames l (.deliver e fates)) (h : linkStep (.deliver e fates) l = .next l') :
    LinkAgrees l' e := by
  obtain ⟨F, G, hjoint⟩ := hagrees
  have hfates : fates = List.replicate ((l.toward e).headD []).length .keep ∨
      fates = List.replicate ((l.toward e).headD []).length .drop := by
    obtain hcarry | hlose := hwhole
    · exact .inl (LinkEvent.deliver.inj hcarry).2
    · exact .inr (LinkEvent.deliver.inj hlose).2
  obtain ⟨F', hjoint'⟩ := joint_deliver hjoint hfates
  cases hexec : exec (.rxbytes (applyFates fates (l.toward e).flatten)) (l.station e) with
  | fault f => simp [linkStep, hexec] at h
  | refused r => simp [linkStep, hexec] at h
  | next t =>
    obtain ⟨-, rfl⟩ := appendRx_next_iff.1 hexec
    obtain rfl : _ = l' := by simpa [linkStep, hexec] using h
    exact linkAgrees_moved_setToward hjoint'

theorem linkAgrees_fresh (pa pb : Config.Params) : LinkAgrees (Link.fresh pa pb) .a := by
  have hshows (p : Config.Params) : Flow.Shows ⟨none, none, [], []⟩ { State.reset with params := p } [] :=
    ⟨rfl, nofun, rfl, rfl, rfl⟩
  have hagrees (p p' : Config.Params) :
      Agrees { State.reset with params := p } { State.reset with params := p' } [] [] [] :=
    ⟨[], .idle rfl rfl nofun nofun, rfl⟩
  exact ⟨_, _, hshows pa, hshows pb, hagrees pa pb, hagrees pb pa⟩

theorem linkAgrees_lossyRun {pa pb : Config.Params} {l : Link} (hrun : LossyRun (Link.fresh pa pb) l) :
    LinkAgrees l .a := by
  induction hrun with
  | refl => exact linkAgrees_fresh pa pb
  | tail _ hstep ih =>
    obtain ⟨x, hwhole, h⟩ := hstep
    cases x with
    | op e i => exact linkAgrees_all (linkAgrees_op (linkAgrees_all ih e) hwhole h) .a
    | deliver e fates => exact linkAgrees_all (linkAgrees_deliver (linkAgrees_all ih e) hwhole h) .a
    | resetBoth => exact hwhole.elim

/-- Settles O59: the two directions agree in every state of the run, and each says this of its clients. -/
theorem lossyLinkDeliversExactlyOnce : Obligations.LossyLinkDeliversExactlyOnce := by
  intro pa pb l hrun e
  obtain ⟨F, G, hjoint⟩ := linkAgrees_all (linkAgrees_lossyRun hrun) e
  exact delivered_of_agrees hjoint.sends

end Sys2Proof.Delivery
